-- ==== Sys2Proof/Word.lean ====
section
/-! DEFINITION. The two word types of the core: the 8-bit data word and the 16-bit CPU address
(rules R4 and R5 of spec/00_scope.md). Arithmetic on both wraps (rule R7), which is `BitVec`'s own. -/

namespace Sys2Proof

/-- An 8-bit unsigned value `u8`: every register, memory cell and bus access (rules R4, R5). -/
abbrev Byte := BitVec 8

/-- A 16-bit CPU address, also the program counter (rules R4, R22, R50). -/
abbrev Addr := BitVec 16

end Sys2Proof
end

