-- ==== Sys2Proof/Machine/Bits.lean ====
section
/-! DEFINITION. The bit-field and byte-order helpers every layer uses (rules R5, R51, R102). -/

namespace Sys2Proof

/-- Bits 7:0 of an address. -/
def loByte (w : Addr) : Byte := w.extractLsb' 0 8

/-- Bits 15:8 of an address: its page. -/
def hiByte (w : Addr) : Byte := w.extractLsb' 8 8

/-- `{hi, lo}`: the 16-bit value whose low byte is stored first (rule R51). -/
def word16 (hi lo : Byte) : Addr := hi ++ lo

/-- `zext_16` of a byte: an address in page 0. -/
def zext16 (b : Byte) : Addr := b.setWidth 16

/-- `sext_16` of a byte, read as -128..127 (rule R5). -/
def sext16 (b : Byte) : Addr := b.signExtend 16

/-- Bit `i` of a byte. -/
def bit (b : Byte) (i : Nat) : Bool := b.getLsbD i

/-- The eight bits of a byte in reverse order (the horizontal flip of rule R432). -/
def reverseBits (b : Byte) : Byte := b.reverse

end Sys2Proof
end

