-- ==== Sys2Proof/Syntax.lean ====
section
/-! DEFINITION. The instruction set as data: the 76 mnemonics, the 13 addressing modes, the operand
forms, and `Instr`, whose constructors are the rows of spec/opcode_table.json
(rules R33, R100, R104, R120). -/

namespace Sys2Proof

/-- The instruction kind of an opcode-table entry (rule R33): the table's 76 mnemonics. -/
inductive Mnemonic where
  | adc | ahx | alr | anc | and | arr | asl | axs | bcc | bcs | beq | bit | bmi | bne | bpl | brk
  | bvc | bvs | clc | cld | cli | clv | cmp | cpx | cpy | dcp | dec | dex | dey | eor | inc | inx
  | iny | isb | jam | jmp | jsr | las | lax | lda | ldx | ldy | lsr | lxa | nop | ora | pha | php
  | pla | plp | rla | rol | ror | rra | rti | rts | sax | sbc | sec | sed | sei | shx | shy | slo
  | sre | sta | stx | sty | tas | tax | tay | tsx | txa | txs | tya | xaa
  deriving DecidableEq, Repr

/-- The 13 addressing modes, "a closed enumeration" (rule R120). -/
inductive Mode where
  | implied | accumulator | immediate | zeroPage | zeroPageX | zeroPageY | relative | absolute
  | absoluteX | absoluteY | indirect | indexedIndirect | indirectIndexed
  deriving DecidableEq, Repr

/-- The class of an opcode (rule R106). -/
inductive OpClass where
  /-- One of the 151 opcodes of the 56 official mnemonics. -/
  | official
  /-- One of the 85 admitted stable unofficial opcodes. -/
  | unofficial
  /-- One of the 12 JAM opcodes. -/
  | halt
  /-- One of the 8 unstable opcodes the spec refuses. -/
  | refused
  deriving DecidableEq, Repr

/-- An operand in memory: the eight modes that resolve an effective address which the instruction then
reads or writes, each with its operand byte or word (rules R124 to R126, R128 to R130, R132, R133). -/
inductive MemOperand where
  | zeroPage (a : Byte)
  | zeroPageX (a : Byte)
  | zeroPageY (a : Byte)
  | absolute (w : Addr)
  | absoluteX (w : Addr)
  | absoluteY (w : Addr)
  | indexedIndirect (a : Byte)
  | indirectIndexed (a : Byte)
  deriving DecidableEq, Repr

/-- An operand of any of the 13 modes, with its operand bytes (rules R120 to R133). -/
inductive Operand where
  | implied
  | accumulator
  | immediate (m : Byte)
  | relative (d : Byte)
  | indirect (w : Addr)
  | memory (o : MemOperand)
  deriving DecidableEq, Repr

/-- What a read instruction takes its value from (rule R135, read class). -/
inductive Source where
  | immediate (m : Byte)
  | memory (o : MemOperand)
  deriving DecidableEq, Repr

/-- What a read-modify-write instruction works on (rules R135, R190). -/
inductive Target where
  | accumulator
  | memory (o : MemOperand)
  deriving DecidableEq, Repr

/-- The instructions: one constructor per opcode byte. A name is the mnemonic and its mode (Acc, Imm,
Zp, ZpX, ZpY, Abs, AbsX, AbsY, Ind, IndX for `(zp,X)`, IndY for `(zp),Y`). Where several rows share mnemonic,
mode and rule (the JAM opcodes, the unofficial NOP forms, ANC) the constructor carries which opcode byte it is;
`Instr.wellFormed` says which bytes those are. Arguments: `op` that opcode byte, `m` an immediate value, `a` a
zero-page address, `d` a branch displacement, `w` the 16-bit operand. -/
inductive Instr where
  -- opcodes $00 to $0F
  | brk | oraIndX (a : Byte) | jam (op : Byte) | sloIndX (a : Byte) | nopZp (op a : Byte)
  | oraZp (a : Byte) | aslZp (a : Byte) | sloZp (a : Byte) | php | oraImm (m : Byte) | aslAcc
  | ancImm (op m : Byte) | nopAbs (w : Addr) | oraAbs (w : Addr) | aslAbs (w : Addr)
  | sloAbs (w : Addr)
  -- opcodes $10 to $1F
  | bpl (d : Byte) | oraIndY (a : Byte) | sloIndY (a : Byte) | nopZpX (op a : Byte)
  | oraZpX (a : Byte) | aslZpX (a : Byte) | sloZpX (a : Byte) | clc | oraAbsY (w : Addr)
  | nopImp (op : Byte) | sloAbsY (w : Addr) | nopAbsX (op : Byte) (w : Addr) | oraAbsX (w : Addr)
  | aslAbsX (w : Addr) | sloAbsX (w : Addr)
  -- opcodes $20 to $2F
  | jsrAbs (w : Addr) | andIndX (a : Byte) | rlaIndX (a : Byte) | bitZp (a : Byte)
  | andZp (a : Byte) | rolZp (a : Byte) | rlaZp (a : Byte) | plp | andImm (m : Byte) | rolAcc
  | bitAbs (w : Addr) | andAbs (w : Addr) | rolAbs (w : Addr) | rlaAbs (w : Addr)
  -- opcodes $30 to $3F
  | bmi (d : Byte) | andIndY (a : Byte) | rlaIndY (a : Byte) | andZpX (a : Byte)
  | rolZpX (a : Byte) | rlaZpX (a : Byte) | sec | andAbsY (w : Addr) | rlaAbsY (w : Addr)
  | andAbsX (w : Addr) | rolAbsX (w : Addr) | rlaAbsX (w : Addr)
  -- opcodes $40 to $4F
  | rti | eorIndX (a : Byte) | sreIndX (a : Byte) | eorZp (a : Byte) | lsrZp (a : Byte)
  | sreZp (a : Byte) | pha | eorImm (m : Byte) | lsrAcc | alrImm (m : Byte) | jmpAbs (w : Addr)
  | eorAbs (w : Addr) | lsrAbs (w : Addr) | sreAbs (w : Addr)
  -- opcodes $50 to $5F
  | bvc (d : Byte) | eorIndY (a : Byte) | sreIndY (a : Byte) | eorZpX (a : Byte)
  | lsrZpX (a : Byte) | sreZpX (a : Byte) | cli | eorAbsY (w : Addr) | sreAbsY (w : Addr)
  | eorAbsX (w : Addr) | lsrAbsX (w : Addr) | sreAbsX (w : Addr)
  -- opcodes $60 to $6F
  | rts | adcIndX (a : Byte) | rraIndX (a : Byte) | adcZp (a : Byte) | rorZp (a : Byte)
  | rraZp (a : Byte) | pla | adcImm (m : Byte) | rorAcc | arrImm (m : Byte) | jmpInd (w : Addr)
  | adcAbs (w : Addr) | rorAbs (w : Addr) | rraAbs (w : Addr)
  -- opcodes $70 to $7F
  | bvs (d : Byte) | adcIndY (a : Byte) | rraIndY (a : Byte) | adcZpX (a : Byte)
  | rorZpX (a : Byte) | rraZpX (a : Byte) | sei | adcAbsY (w : Addr) | rraAbsY (w : Addr)
  | adcAbsX (w : Addr) | rorAbsX (w : Addr) | rraAbsX (w : Addr)
  -- opcodes $80 to $8F
  | nopImm (op m : Byte) | staIndX (a : Byte) | saxIndX (a : Byte) | styZp (a : Byte)
  | staZp (a : Byte) | stxZp (a : Byte) | saxZp (a : Byte) | dey | txa | xaaImm (m : Byte)
  | styAbs (w : Addr) | staAbs (w : Addr) | stxAbs (w : Addr) | saxAbs (w : Addr)
  -- opcodes $90 to $9F
  | bcc (d : Byte) | staIndY (a : Byte) | ahxIndY (a : Byte) | styZpX (a : Byte)
  | staZpX (a : Byte) | stxZpY (a : Byte) | saxZpY (a : Byte) | tya | staAbsY (w : Addr) | txs
  | tasAbsY (w : Addr) | shyAbsX (w : Addr) | staAbsX (w : Addr) | shxAbsY (w : Addr)
  | ahxAbsY (w : Addr)
  -- opcodes $A0 to $AF
  | ldyImm (m : Byte) | ldaIndX (a : Byte) | ldxImm (m : Byte) | laxIndX (a : Byte)
  | ldyZp (a : Byte) | ldaZp (a : Byte) | ldxZp (a : Byte) | laxZp (a : Byte) | tay
  | ldaImm (m : Byte) | tax | lxaImm (m : Byte) | ldyAbs (w : Addr) | ldaAbs (w : Addr)
  | ldxAbs (w : Addr) | laxAbs (w : Addr)
  -- opcodes $B0 to $BF
  | bcs (d : Byte) | ldaIndY (a : Byte) | laxIndY (a : Byte) | ldyZpX (a : Byte)
  | ldaZpX (a : Byte) | ldxZpY (a : Byte) | laxZpY (a : Byte) | clv | ldaAbsY (w : Addr) | tsx
  | lasAbsY (w : Addr) | ldyAbsX (w : Addr) | ldaAbsX (w : Addr) | ldxAbsY (w : Addr)
  | laxAbsY (w : Addr)
  -- opcodes $C0 to $CF
  | cpyImm (m : Byte) | cmpIndX (a : Byte) | dcpIndX (a : Byte) | cpyZp (a : Byte)
  | cmpZp (a : Byte) | decZp (a : Byte) | dcpZp (a : Byte) | iny | cmpImm (m : Byte) | dex
  | axsImm (m : Byte) | cpyAbs (w : Addr) | cmpAbs (w : Addr) | decAbs (w : Addr)
  | dcpAbs (w : Addr)
  -- opcodes $D0 to $DF
  | bne (d : Byte) | cmpIndY (a : Byte) | dcpIndY (a : Byte) | cmpZpX (a : Byte)
  | decZpX (a : Byte) | dcpZpX (a : Byte) | cld | cmpAbsY (w : Addr) | dcpAbsY (w : Addr)
  | cmpAbsX (w : Addr) | decAbsX (w : Addr) | dcpAbsX (w : Addr)
  -- opcodes $E0 to $EF
  | cpxImm (m : Byte) | sbcIndX (a : Byte) | isbIndX (a : Byte) | cpxZp (a : Byte)
  | sbcZp (a : Byte) | incZp (a : Byte) | isbZp (a : Byte) | inx | sbcImm (m : Byte) | nop
  | sbcImmEB (m : Byte) | cpxAbs (w : Addr) | sbcAbs (w : Addr) | incAbs (w : Addr)
  | isbAbs (w : Addr)
  -- opcodes $F0 to $FF
  | beq (d : Byte) | sbcIndY (a : Byte) | isbIndY (a : Byte) | sbcZpX (a : Byte)
  | incZpX (a : Byte) | isbZpX (a : Byte) | sed | sbcAbsY (w : Addr) | isbAbsY (w : Addr)
  | sbcAbsX (w : Addr) | incAbsX (w : Addr) | isbAbsX (w : Addr)
  deriving DecidableEq, Repr

end Sys2Proof
end

