-- ==== Sys2Proof/WellFormed.lean ====
section
/-! DEFINITION. Which terms of `Instr` are instructions. Every operand field is exactly the operand byte or operand
word of rule R100 ("There is no other field: no register field, no mode bit and no prefix"), so only a
constructor that carries its opcode byte can be ill formed: the byte must be one of its rows (rule R104). -/

namespace Sys2Proof

/-- The opcode bytes of `jam` (rule R257). -/
def jamOpcodes : List Byte := [0x02, 0x12, 0x22, 0x32, 0x42, 0x52, 0x62, 0x72, 0x92, 0xB2, 0xD2, 0xF2]

/-- The opcode bytes of `nopZp` (rule R243). -/
def nopZpOpcodes : List Byte := [0x04, 0x44, 0x64]

/-- The opcode bytes of `ancImm` (rule R253). -/
def ancImmOpcodes : List Byte := [0x0B, 0x2B]

/-- The opcode bytes of `nopZpX` (rule R243). -/
def nopZpXOpcodes : List Byte := [0x14, 0x34, 0x54, 0x74, 0xD4, 0xF4]

/-- The opcode bytes of `nopImp` (rule R241). -/
def nopImpOpcodes : List Byte := [0x1A, 0x3A, 0x5A, 0x7A, 0xDA, 0xFA]

/-- The opcode bytes of `nopAbsX` (rule R243). -/
def nopAbsXOpcodes : List Byte := [0x1C, 0x3C, 0x5C, 0x7C, 0xDC, 0xFC]

/-- The opcode bytes of `nopImm` (rule R242). -/
def nopImmOpcodes : List Byte := [0x80, 0x82, 0x89, 0xC2, 0xE2]

/-- Whether a term is an instruction: an opcode byte it carries is one of its constructor's rows. -/
def Instr.wellFormed : Instr → Bool
  | .jam op => decide (op ∈ jamOpcodes)
  | .nopZp op _ => decide (op ∈ nopZpOpcodes)
  | .ancImm op _ => decide (op ∈ ancImmOpcodes)
  | .nopZpX op _ => decide (op ∈ nopZpXOpcodes)
  | .nopImp op => decide (op ∈ nopImpOpcodes)
  | .nopAbsX op _ => decide (op ∈ nopAbsXOpcodes)
  | .nopImm op _ => decide (op ∈ nopImmOpcodes)
  | _ => true

end Sys2Proof
end

