-- ==== Sys2Proof/Decode.lean ====
section
/-! DEFINITION. The opcode table (rules R33, R104), the decoder, total on any bytes (rule R103), and the
encoder written from the same rows. Opcode bytes run `$00` to `$FF` in rows of sixteen. -/

namespace Sys2Proof

/-- An opcode-table entry: (instruction kind, addressing mode, byte length, base cycle count), with the
page-cross mark and the class of rule R104. No cycle count stands for the table's `-`. -/
structure Row where
  kind      : Mnemonic
  mode      : Mode
  length    : Nat
  cycles    : Option Nat
  pageCross : Bool
  cls       : OpClass
  deriving DecidableEq, Repr

/-- Instruction length as a function of the mode alone (rule R101). -/
def Mode.length : Mode → Nat
  | .implied | .accumulator => 1
  | .immediate | .zeroPage | .zeroPageX | .zeroPageY | .relative => 2
  | .indexedIndirect | .indirectIndexed => 2
  | .absolute | .absoluteX | .absoluteY | .indirect => 3

/-- Table rows `$00` to `$0F` (rule R104). -/
def opcodeRows0 : List Row :=
  [⟨.brk, .implied, 1, some 7, false, .official⟩,
   ⟨.ora, .indexedIndirect, 2, some 6, false, .official⟩,
   ⟨.jam, .implied, 1, none, false, .halt⟩,
   ⟨.slo, .indexedIndirect, 2, some 8, false, .unofficial⟩,
   ⟨.nop, .zeroPage, 2, some 3, false, .unofficial⟩,
   ⟨.ora, .zeroPage, 2, some 3, false, .official⟩,
   ⟨.asl, .zeroPage, 2, some 5, false, .official⟩,
   ⟨.slo, .zeroPage, 2, some 5, false, .unofficial⟩,
   ⟨.php, .implied, 1, some 3, false, .official⟩,
   ⟨.ora, .immediate, 2, some 2, false, .official⟩,
   ⟨.asl, .accumulator, 1, some 2, false, .official⟩,
   ⟨.anc, .immediate, 2, some 2, false, .unofficial⟩,
   ⟨.nop, .absolute, 3, some 4, false, .unofficial⟩,
   ⟨.ora, .absolute, 3, some 4, false, .official⟩,
   ⟨.asl, .absolute, 3, some 6, false, .official⟩,
   ⟨.slo, .absolute, 3, some 6, false, .unofficial⟩]

/-- Table rows `$10` to `$1F` (rule R104). -/
def opcodeRows1 : List Row :=
  [⟨.bpl, .relative, 2, some 2, false, .official⟩,
   ⟨.ora, .indirectIndexed, 2, some 5, true, .official⟩,
   ⟨.jam, .implied, 1, none, false, .halt⟩,
   ⟨.slo, .indirectIndexed, 2, some 8, false, .unofficial⟩,
   ⟨.nop, .zeroPageX, 2, some 4, false, .unofficial⟩,
   ⟨.ora, .zeroPageX, 2, some 4, false, .official⟩,
   ⟨.asl, .zeroPageX, 2, some 6, false, .official⟩,
   ⟨.slo, .zeroPageX, 2, some 6, false, .unofficial⟩,
   ⟨.clc, .implied, 1, some 2, false, .official⟩,
   ⟨.ora, .absoluteY, 3, some 4, true, .official⟩,
   ⟨.nop, .implied, 1, some 2, false, .unofficial⟩,
   ⟨.slo, .absoluteY, 3, some 7, false, .unofficial⟩,
   ⟨.nop, .absoluteX, 3, some 4, true, .unofficial⟩,
   ⟨.ora, .absoluteX, 3, some 4, true, .official⟩,
   ⟨.asl, .absoluteX, 3, some 7, false, .official⟩,
   ⟨.slo, .absoluteX, 3, some 7, false, .unofficial⟩]

/-- Table rows `$20` to `$2F` (rule R104). -/
def opcodeRows2 : List Row :=
  [⟨.jsr, .absolute, 3, some 6, false, .official⟩,
   ⟨.and, .indexedIndirect, 2, some 6, false, .official⟩,
   ⟨.jam, .implied, 1, none, false, .halt⟩,
   ⟨.rla, .indexedIndirect, 2, some 8, false, .unofficial⟩,
   ⟨.bit, .zeroPage, 2, some 3, false, .official⟩,
   ⟨.and, .zeroPage, 2, some 3, false, .official⟩,
   ⟨.rol, .zeroPage, 2, some 5, false, .official⟩,
   ⟨.rla, .zeroPage, 2, some 5, false, .unofficial⟩,
   ⟨.plp, .implied, 1, some 4, false, .official⟩,
   ⟨.and, .immediate, 2, some 2, false, .official⟩,
   ⟨.rol, .accumulator, 1, some 2, false, .official⟩,
   ⟨.anc, .immediate, 2, some 2, false, .unofficial⟩,
   ⟨.bit, .absolute, 3, some 4, false, .official⟩,
   ⟨.and, .absolute, 3, some 4, false, .official⟩,
   ⟨.rol, .absolute, 3, some 6, false, .official⟩,
   ⟨.rla, .absolute, 3, some 6, false, .unofficial⟩]

/-- Table rows `$30` to `$3F` (rule R104). -/
def opcodeRows3 : List Row :=
  [⟨.bmi, .relative, 2, some 2, false, .official⟩,
   ⟨.and, .indirectIndexed, 2, some 5, true, .official⟩,
   ⟨.jam, .implied, 1, none, false, .halt⟩,
   ⟨.rla, .indirectIndexed, 2, some 8, false, .unofficial⟩,
   ⟨.nop, .zeroPageX, 2, some 4, false, .unofficial⟩,
   ⟨.and, .zeroPageX, 2, some 4, false, .official⟩,
   ⟨.rol, .zeroPageX, 2, some 6, false, .official⟩,
   ⟨.rla, .zeroPageX, 2, some 6, false, .unofficial⟩,
   ⟨.sec, .implied, 1, some 2, false, .official⟩,
   ⟨.and, .absoluteY, 3, some 4, true, .official⟩,
   ⟨.nop, .implied, 1, some 2, false, .unofficial⟩,
   ⟨.rla, .absoluteY, 3, some 7, false, .unofficial⟩,
   ⟨.nop, .absoluteX, 3, some 4, true, .unofficial⟩,
   ⟨.and, .absoluteX, 3, some 4, true, .official⟩,
   ⟨.rol, .absoluteX, 3, some 7, false, .official⟩,
   ⟨.rla, .absoluteX, 3, some 7, false, .unofficial⟩]

/-- Table rows `$40` to `$4F` (rule R104). -/
def opcodeRows4 : List Row :=
  [⟨.rti, .implied, 1, some 6, false, .official⟩,
   ⟨.eor, .indexedIndirect, 2, some 6, false, .official⟩,
   ⟨.jam, .implied, 1, none, false, .halt⟩,
   ⟨.sre, .indexedIndirect, 2, some 8, false, .unofficial⟩,
   ⟨.nop, .zeroPage, 2, some 3, false, .unofficial⟩,
   ⟨.eor, .zeroPage, 2, some 3, false, .official⟩,
   ⟨.lsr, .zeroPage, 2, some 5, false, .official⟩,
   ⟨.sre, .zeroPage, 2, some 5, false, .unofficial⟩,
   ⟨.pha, .implied, 1, some 3, false, .official⟩,
   ⟨.eor, .immediate, 2, some 2, false, .official⟩,
   ⟨.lsr, .accumulator, 1, some 2, false, .official⟩,
   ⟨.alr, .immediate, 2, some 2, false, .unofficial⟩,
   ⟨.jmp, .absolute, 3, some 3, false, .official⟩,
   ⟨.eor, .absolute, 3, some 4, false, .official⟩,
   ⟨.lsr, .absolute, 3, some 6, false, .official⟩,
   ⟨.sre, .absolute, 3, some 6, false, .unofficial⟩]

/-- Table rows `$50` to `$5F` (rule R104). -/
def opcodeRows5 : List Row :=
  [⟨.bvc, .relative, 2, some 2, false, .official⟩,
   ⟨.eor, .indirectIndexed, 2, some 5, true, .official⟩,
   ⟨.jam, .implied, 1, none, false, .halt⟩,
   ⟨.sre, .indirectIndexed, 2, some 8, false, .unofficial⟩,
   ⟨.nop, .zeroPageX, 2, some 4, false, .unofficial⟩,
   ⟨.eor, .zeroPageX, 2, some 4, false, .official⟩,
   ⟨.lsr, .zeroPageX, 2, some 6, false, .official⟩,
   ⟨.sre, .zeroPageX, 2, some 6, false, .unofficial⟩,
   ⟨.cli, .implied, 1, some 2, false, .official⟩,
   ⟨.eor, .absoluteY, 3, some 4, true, .official⟩,
   ⟨.nop, .implied, 1, some 2, false, .unofficial⟩,
   ⟨.sre, .absoluteY, 3, some 7, false, .unofficial⟩,
   ⟨.nop, .absoluteX, 3, some 4, true, .unofficial⟩,
   ⟨.eor, .absoluteX, 3, some 4, true, .official⟩,
   ⟨.lsr, .absoluteX, 3, some 7, false, .official⟩,
   ⟨.sre, .absoluteX, 3, some 7, false, .unofficial⟩]

/-- Table rows `$60` to `$6F` (rule R104). -/
def opcodeRows6 : List Row :=
  [⟨.rts, .implied, 1, some 6, false, .official⟩,
   ⟨.adc, .indexedIndirect, 2, some 6, false, .official⟩,
   ⟨.jam, .implied, 1, none, false, .halt⟩,
   ⟨.rra, .indexedIndirect, 2, some 8, false, .unofficial⟩,
   ⟨.nop, .zeroPage, 2, some 3, false, .unofficial⟩,
   ⟨.adc, .zeroPage, 2, some 3, false, .official⟩,
   ⟨.ror, .zeroPage, 2, some 5, false, .official⟩,
   ⟨.rra, .zeroPage, 2, some 5, false, .unofficial⟩,
   ⟨.pla, .implied, 1, some 4, false, .official⟩,
   ⟨.adc, .immediate, 2, some 2, false, .official⟩,
   ⟨.ror, .accumulator, 1, some 2, false, .official⟩,
   ⟨.arr, .immediate, 2, some 2, false, .unofficial⟩,
   ⟨.jmp, .indirect, 3, some 5, false, .official⟩,
   ⟨.adc, .absolute, 3, some 4, false, .official⟩,
   ⟨.ror, .absolute, 3, some 6, false, .official⟩,
   ⟨.rra, .absolute, 3, some 6, false, .unofficial⟩]

/-- Table rows `$70` to `$7F` (rule R104). -/
def opcodeRows7 : List Row :=
  [⟨.bvs, .relative, 2, some 2, false, .official⟩,
   ⟨.adc, .indirectIndexed, 2, some 5, true, .official⟩,
   ⟨.jam, .implied, 1, none, false, .halt⟩,
   ⟨.rra, .indirectIndexed, 2, some 8, false, .unofficial⟩,
   ⟨.nop, .zeroPageX, 2, some 4, false, .unofficial⟩,
   ⟨.adc, .zeroPageX, 2, some 4, false, .official⟩,
   ⟨.ror, .zeroPageX, 2, some 6, false, .official⟩,
   ⟨.rra, .zeroPageX, 2, some 6, false, .unofficial⟩,
   ⟨.sei, .implied, 1, some 2, false, .official⟩,
   ⟨.adc, .absoluteY, 3, some 4, true, .official⟩,
   ⟨.nop, .implied, 1, some 2, false, .unofficial⟩,
   ⟨.rra, .absoluteY, 3, some 7, false, .unofficial⟩,
   ⟨.nop, .absoluteX, 3, some 4, true, .unofficial⟩,
   ⟨.adc, .absoluteX, 3, some 4, true, .official⟩,
   ⟨.ror, .absoluteX, 3, some 7, false, .official⟩,
   ⟨.rra, .absoluteX, 3, some 7, false, .unofficial⟩]

/-- Table rows `$80` to `$8F` (rule R104). -/
def opcodeRows8 : List Row :=
  [⟨.nop, .immediate, 2, some 2, false, .unofficial⟩,
   ⟨.sta, .indexedIndirect, 2, some 6, false, .official⟩,
   ⟨.nop, .immediate, 2, some 2, false, .unofficial⟩,
   ⟨.sax, .indexedIndirect, 2, some 6, false, .unofficial⟩,
   ⟨.sty, .zeroPage, 2, some 3, false, .official⟩,
   ⟨.sta, .zeroPage, 2, some 3, false, .official⟩,
   ⟨.stx, .zeroPage, 2, some 3, false, .official⟩,
   ⟨.sax, .zeroPage, 2, some 3, false, .unofficial⟩,
   ⟨.dey, .implied, 1, some 2, false, .official⟩,
   ⟨.nop, .immediate, 2, some 2, false, .unofficial⟩,
   ⟨.txa, .implied, 1, some 2, false, .official⟩,
   ⟨.xaa, .immediate, 2, none, false, .refused⟩,
   ⟨.sty, .absolute, 3, some 4, false, .official⟩,
   ⟨.sta, .absolute, 3, some 4, false, .official⟩,
   ⟨.stx, .absolute, 3, some 4, false, .official⟩,
   ⟨.sax, .absolute, 3, some 4, false, .unofficial⟩]

/-- Table rows `$90` to `$9F` (rule R104). -/
def opcodeRows9 : List Row :=
  [⟨.bcc, .relative, 2, some 2, false, .official⟩,
   ⟨.sta, .indirectIndexed, 2, some 6, false, .official⟩,
   ⟨.jam, .implied, 1, none, false, .halt⟩,
   ⟨.ahx, .indirectIndexed, 2, none, false, .refused⟩,
   ⟨.sty, .zeroPageX, 2, some 4, false, .official⟩,
   ⟨.sta, .zeroPageX, 2, some 4, false, .official⟩,
   ⟨.stx, .zeroPageY, 2, some 4, false, .official⟩,
   ⟨.sax, .zeroPageY, 2, some 4, false, .unofficial⟩,
   ⟨.tya, .implied, 1, some 2, false, .official⟩,
   ⟨.sta, .absoluteY, 3, some 5, false, .official⟩,
   ⟨.txs, .implied, 1, some 2, false, .official⟩,
   ⟨.tas, .absoluteY, 3, none, false, .refused⟩,
   ⟨.shy, .absoluteX, 3, none, false, .refused⟩,
   ⟨.sta, .absoluteX, 3, some 5, false, .official⟩,
   ⟨.shx, .absoluteY, 3, none, false, .refused⟩,
   ⟨.ahx, .absoluteY, 3, none, false, .refused⟩]

/-- Table rows `$A0` to `$AF` (rule R104). -/
def opcodeRowsA : List Row :=
  [⟨.ldy, .immediate, 2, some 2, false, .official⟩,
   ⟨.lda, .indexedIndirect, 2, some 6, false, .official⟩,
   ⟨.ldx, .immediate, 2, some 2, false, .official⟩,
   ⟨.lax, .indexedIndirect, 2, some 6, false, .unofficial⟩,
   ⟨.ldy, .zeroPage, 2, some 3, false, .official⟩,
   ⟨.lda, .zeroPage, 2, some 3, false, .official⟩,
   ⟨.ldx, .zeroPage, 2, some 3, false, .official⟩,
   ⟨.lax, .zeroPage, 2, some 3, false, .unofficial⟩,
   ⟨.tay, .implied, 1, some 2, false, .official⟩,
   ⟨.lda, .immediate, 2, some 2, false, .official⟩,
   ⟨.tax, .implied, 1, some 2, false, .official⟩,
   ⟨.lxa, .immediate, 2, none, false, .refused⟩,
   ⟨.ldy, .absolute, 3, some 4, false, .official⟩,
   ⟨.lda, .absolute, 3, some 4, false, .official⟩,
   ⟨.ldx, .absolute, 3, some 4, false, .official⟩,
   ⟨.lax, .absolute, 3, some 4, false, .unofficial⟩]

/-- Table rows `$B0` to `$BF` (rule R104). -/
def opcodeRowsB : List Row :=
  [⟨.bcs, .relative, 2, some 2, false, .official⟩,
   ⟨.lda, .indirectIndexed, 2, some 5, true, .official⟩,
   ⟨.jam, .implied, 1, none, false, .halt⟩,
   ⟨.lax, .indirectIndexed, 2, some 5, true, .unofficial⟩,
   ⟨.ldy, .zeroPageX, 2, some 4, false, .official⟩,
   ⟨.lda, .zeroPageX, 2, some 4, false, .official⟩,
   ⟨.ldx, .zeroPageY, 2, some 4, false, .official⟩,
   ⟨.lax, .zeroPageY, 2, some 4, false, .unofficial⟩,
   ⟨.clv, .implied, 1, some 2, false, .official⟩,
   ⟨.lda, .absoluteY, 3, some 4, true, .official⟩,
   ⟨.tsx, .implied, 1, some 2, false, .official⟩,
   ⟨.las, .absoluteY, 3, none, false, .refused⟩,
   ⟨.ldy, .absoluteX, 3, some 4, true, .official⟩,
   ⟨.lda, .absoluteX, 3, some 4, true, .official⟩,
   ⟨.ldx, .absoluteY, 3, some 4, true, .official⟩,
   ⟨.lax, .absoluteY, 3, some 4, true, .unofficial⟩]

/-- Table rows `$C0` to `$CF` (rule R104). -/
def opcodeRowsC : List Row :=
  [⟨.cpy, .immediate, 2, some 2, false, .official⟩,
   ⟨.cmp, .indexedIndirect, 2, some 6, false, .official⟩,
   ⟨.nop, .immediate, 2, some 2, false, .unofficial⟩,
   ⟨.dcp, .indexedIndirect, 2, some 8, false, .unofficial⟩,
   ⟨.cpy, .zeroPage, 2, some 3, false, .official⟩,
   ⟨.cmp, .zeroPage, 2, some 3, false, .official⟩,
   ⟨.dec, .zeroPage, 2, some 5, false, .official⟩,
   ⟨.dcp, .zeroPage, 2, some 5, false, .unofficial⟩,
   ⟨.iny, .implied, 1, some 2, false, .official⟩,
   ⟨.cmp, .immediate, 2, some 2, false, .official⟩,
   ⟨.dex, .implied, 1, some 2, false, .official⟩,
   ⟨.axs, .immediate, 2, some 2, false, .unofficial⟩,
   ⟨.cpy, .absolute, 3, some 4, false, .official⟩,
   ⟨.cmp, .absolute, 3, some 4, false, .official⟩,
   ⟨.dec, .absolute, 3, some 6, false, .official⟩,
   ⟨.dcp, .absolute, 3, some 6, false, .unofficial⟩]

/-- Table rows `$D0` to `$DF` (rule R104). -/
def opcodeRowsD : List Row :=
  [⟨.bne, .relative, 2, some 2, false, .official⟩,
   ⟨.cmp, .indirectIndexed, 2, some 5, true, .official⟩,
   ⟨.jam, .implied, 1, none, false, .halt⟩,
   ⟨.dcp, .indirectIndexed, 2, some 8, false, .unofficial⟩,
   ⟨.nop, .zeroPageX, 2, some 4, false, .unofficial⟩,
   ⟨.cmp, .zeroPageX, 2, some 4, false, .official⟩,
   ⟨.dec, .zeroPageX, 2, some 6, false, .official⟩,
   ⟨.dcp, .zeroPageX, 2, some 6, false, .unofficial⟩,
   ⟨.cld, .implied, 1, some 2, false, .official⟩,
   ⟨.cmp, .absoluteY, 3, some 4, true, .official⟩,
   ⟨.nop, .implied, 1, some 2, false, .unofficial⟩,
   ⟨.dcp, .absoluteY, 3, some 7, false, .unofficial⟩,
   ⟨.nop, .absoluteX, 3, some 4, true, .unofficial⟩,
   ⟨.cmp, .absoluteX, 3, some 4, true, .official⟩,
   ⟨.dec, .absoluteX, 3, some 7, false, .official⟩,
   ⟨.dcp, .absoluteX, 3, some 7, false, .unofficial⟩]

/-- Table rows `$E0` to `$EF` (rule R104). -/
def opcodeRowsE : List Row :=
  [⟨.cpx, .immediate, 2, some 2, false, .official⟩,
   ⟨.sbc, .indexedIndirect, 2, some 6, false, .official⟩,
   ⟨.nop, .immediate, 2, some 2, false, .unofficial⟩,
   ⟨.isb, .indexedIndirect, 2, some 8, false, .unofficial⟩,
   ⟨.cpx, .zeroPage, 2, some 3, false, .official⟩,
   ⟨.sbc, .zeroPage, 2, some 3, false, .official⟩,
   ⟨.inc, .zeroPage, 2, some 5, false, .official⟩,
   ⟨.isb, .zeroPage, 2, some 5, false, .unofficial⟩,
   ⟨.inx, .implied, 1, some 2, false, .official⟩,
   ⟨.sbc, .immediate, 2, some 2, false, .official⟩,
   ⟨.nop, .implied, 1, some 2, false, .official⟩,
   ⟨.sbc, .immediate, 2, some 2, false, .unofficial⟩,
   ⟨.cpx, .absolute, 3, some 4, false, .official⟩,
   ⟨.sbc, .absolute, 3, some 4, false, .official⟩,
   ⟨.inc, .absolute, 3, some 6, false, .official⟩,
   ⟨.isb, .absolute, 3, some 6, false, .unofficial⟩]

/-- Table rows `$F0` to `$FF` (rule R104). -/
def opcodeRowsF : List Row :=
  [⟨.beq, .relative, 2, some 2, false, .official⟩,
   ⟨.sbc, .indirectIndexed, 2, some 5, true, .official⟩,
   ⟨.jam, .implied, 1, none, false, .halt⟩,
   ⟨.isb, .indirectIndexed, 2, some 8, false, .unofficial⟩,
   ⟨.nop, .zeroPageX, 2, some 4, false, .unofficial⟩,
   ⟨.sbc, .zeroPageX, 2, some 4, false, .official⟩,
   ⟨.inc, .zeroPageX, 2, some 6, false, .official⟩,
   ⟨.isb, .zeroPageX, 2, some 6, false, .unofficial⟩,
   ⟨.sed, .implied, 1, some 2, false, .official⟩,
   ⟨.sbc, .absoluteY, 3, some 4, true, .official⟩,
   ⟨.nop, .implied, 1, some 2, false, .unofficial⟩,
   ⟨.isb, .absoluteY, 3, some 7, false, .unofficial⟩,
   ⟨.nop, .absoluteX, 3, some 4, true, .unofficial⟩,
   ⟨.sbc, .absoluteX, 3, some 4, true, .official⟩,
   ⟨.inc, .absoluteX, 3, some 7, false, .official⟩,
   ⟨.isb, .absoluteX, 3, some 7, false, .unofficial⟩]

/-- The opcode table in its sixteen blocks of sixteen rows, by the high digit of the opcode byte. -/
def opcodeBlocks : List (List Row) :=
  [opcodeRows0, opcodeRows1, opcodeRows2, opcodeRows3, opcodeRows4, opcodeRows5, opcodeRows6, opcodeRows7,
   opcodeRows8, opcodeRows9, opcodeRowsA, opcodeRowsB, opcodeRowsC, opcodeRowsD, opcodeRowsE, opcodeRowsF]

theorem opcodeBlocks_length : ∀ b ∈ opcodeBlocks, b.length = 16 := by decide

/-- The 256-entry opcode table (rule R33): configuration, never written. -/
def opcodeTable : List Row := opcodeBlocks.flatten

/-- The table entry of an opcode byte: entry `op.toNat` of `opcodeTable`, looked up by its two digits. -/
def opcodeRow (op : Byte) : Row :=
  (opcodeBlocks[op.toNat / 16]'(by have := op.isLt; simp only [opcodeBlocks, List.length_cons, List.length_nil]; omega))[
    op.toNat % 16]'(by rw [opcodeBlocks_length _ (List.getElem_mem _)]; omega)

/-- How the opcodes `$00` to `$0F` read their operand bytes (rules R100, R102). -/
def instrRows0 : List (Byte → Byte → Instr) :=
  [fun _ _ => .brk,
   fun b _ => .oraIndX b,
   fun _ _ => .jam 0x02,
   fun b _ => .sloIndX b,
   fun b _ => .nopZp 0x04 b,
   fun b _ => .oraZp b,
   fun b _ => .aslZp b,
   fun b _ => .sloZp b,
   fun _ _ => .php,
   fun b _ => .oraImm b,
   fun _ _ => .aslAcc,
   fun b _ => .ancImm 0x0B b,
   fun lo hi => .nopAbs (word16 hi lo),
   fun lo hi => .oraAbs (word16 hi lo),
   fun lo hi => .aslAbs (word16 hi lo),
   fun lo hi => .sloAbs (word16 hi lo)]

/-- How the opcodes `$10` to `$1F` read their operand bytes (rules R100, R102). -/
def instrRows1 : List (Byte → Byte → Instr) :=
  [fun b _ => .bpl b,
   fun b _ => .oraIndY b,
   fun _ _ => .jam 0x12,
   fun b _ => .sloIndY b,
   fun b _ => .nopZpX 0x14 b,
   fun b _ => .oraZpX b,
   fun b _ => .aslZpX b,
   fun b _ => .sloZpX b,
   fun _ _ => .clc,
   fun lo hi => .oraAbsY (word16 hi lo),
   fun _ _ => .nopImp 0x1A,
   fun lo hi => .sloAbsY (word16 hi lo),
   fun lo hi => .nopAbsX 0x1C (word16 hi lo),
   fun lo hi => .oraAbsX (word16 hi lo),
   fun lo hi => .aslAbsX (word16 hi lo),
   fun lo hi => .sloAbsX (word16 hi lo)]

/-- How the opcodes `$20` to `$2F` read their operand bytes (rules R100, R102). -/
def instrRows2 : List (Byte → Byte → Instr) :=
  [fun lo hi => .jsrAbs (word16 hi lo),
   fun b _ => .andIndX b,
   fun _ _ => .jam 0x22,
   fun b _ => .rlaIndX b,
   fun b _ => .bitZp b,
   fun b _ => .andZp b,
   fun b _ => .rolZp b,
   fun b _ => .rlaZp b,
   fun _ _ => .plp,
   fun b _ => .andImm b,
   fun _ _ => .rolAcc,
   fun b _ => .ancImm 0x2B b,
   fun lo hi => .bitAbs (word16 hi lo),
   fun lo hi => .andAbs (word16 hi lo),
   fun lo hi => .rolAbs (word16 hi lo),
   fun lo hi => .rlaAbs (word16 hi lo)]

/-- How the opcodes `$30` to `$3F` read their operand bytes (rules R100, R102). -/
def instrRows3 : List (Byte → Byte → Instr) :=
  [fun b _ => .bmi b,
   fun b _ => .andIndY b,
   fun _ _ => .jam 0x32,
   fun b _ => .rlaIndY b,
   fun b _ => .nopZpX 0x34 b,
   fun b _ => .andZpX b,
   fun b _ => .rolZpX b,
   fun b _ => .rlaZpX b,
   fun _ _ => .sec,
   fun lo hi => .andAbsY (word16 hi lo),
   fun _ _ => .nopImp 0x3A,
   fun lo hi => .rlaAbsY (word16 hi lo),
   fun lo hi => .nopAbsX 0x3C (word16 hi lo),
   fun lo hi => .andAbsX (word16 hi lo),
   fun lo hi => .rolAbsX (word16 hi lo),
   fun lo hi => .rlaAbsX (word16 hi lo)]

/-- How the opcodes `$40` to `$4F` read their operand bytes (rules R100, R102). -/
def instrRows4 : List (Byte → Byte → Instr) :=
  [fun _ _ => .rti,
   fun b _ => .eorIndX b,
   fun _ _ => .jam 0x42,
   fun b _ => .sreIndX b,
   fun b _ => .nopZp 0x44 b,
   fun b _ => .eorZp b,
   fun b _ => .lsrZp b,
   fun b _ => .sreZp b,
   fun _ _ => .pha,
   fun b _ => .eorImm b,
   fun _ _ => .lsrAcc,
   fun b _ => .alrImm b,
   fun lo hi => .jmpAbs (word16 hi lo),
   fun lo hi => .eorAbs (word16 hi lo),
   fun lo hi => .lsrAbs (word16 hi lo),
   fun lo hi => .sreAbs (word16 hi lo)]

/-- How the opcodes `$50` to `$5F` read their operand bytes (rules R100, R102). -/
def instrRows5 : List (Byte → Byte → Instr) :=
  [fun b _ => .bvc b,
   fun b _ => .eorIndY b,
   fun _ _ => .jam 0x52,
   fun b _ => .sreIndY b,
   fun b _ => .nopZpX 0x54 b,
   fun b _ => .eorZpX b,
   fun b _ => .lsrZpX b,
   fun b _ => .sreZpX b,
   fun _ _ => .cli,
   fun lo hi => .eorAbsY (word16 hi lo),
   fun _ _ => .nopImp 0x5A,
   fun lo hi => .sreAbsY (word16 hi lo),
   fun lo hi => .nopAbsX 0x5C (word16 hi lo),
   fun lo hi => .eorAbsX (word16 hi lo),
   fun lo hi => .lsrAbsX (word16 hi lo),
   fun lo hi => .sreAbsX (word16 hi lo)]

/-- How the opcodes `$60` to `$6F` read their operand bytes (rules R100, R102). -/
def instrRows6 : List (Byte → Byte → Instr) :=
  [fun _ _ => .rts,
   fun b _ => .adcIndX b,
   fun _ _ => .jam 0x62,
   fun b _ => .rraIndX b,
   fun b _ => .nopZp 0x64 b,
   fun b _ => .adcZp b,
   fun b _ => .rorZp b,
   fun b _ => .rraZp b,
   fun _ _ => .pla,
   fun b _ => .adcImm b,
   fun _ _ => .rorAcc,
   fun b _ => .arrImm b,
   fun lo hi => .jmpInd (word16 hi lo),
   fun lo hi => .adcAbs (word16 hi lo),
   fun lo hi => .rorAbs (word16 hi lo),
   fun lo hi => .rraAbs (word16 hi lo)]

/-- How the opcodes `$70` to `$7F` read their operand bytes (rules R100, R102). -/
def instrRows7 : List (Byte → Byte → Instr) :=
  [fun b _ => .bvs b,
   fun b _ => .adcIndY b,
   fun _ _ => .jam 0x72,
   fun b _ => .rraIndY b,
   fun b _ => .nopZpX 0x74 b,
   fun b _ => .adcZpX b,
   fun b _ => .rorZpX b,
   fun b _ => .rraZpX b,
   fun _ _ => .sei,
   fun lo hi => .adcAbsY (word16 hi lo),
   fun _ _ => .nopImp 0x7A,
   fun lo hi => .rraAbsY (word16 hi lo),
   fun lo hi => .nopAbsX 0x7C (word16 hi lo),
   fun lo hi => .adcAbsX (word16 hi lo),
   fun lo hi => .rorAbsX (word16 hi lo),
   fun lo hi => .rraAbsX (word16 hi lo)]

/-- How the opcodes `$80` to `$8F` read their operand bytes (rules R100, R102). -/
def instrRows8 : List (Byte → Byte → Instr) :=
  [fun b _ => .nopImm 0x80 b,
   fun b _ => .staIndX b,
   fun b _ => .nopImm 0x82 b,
   fun b _ => .saxIndX b,
   fun b _ => .styZp b,
   fun b _ => .staZp b,
   fun b _ => .stxZp b,
   fun b _ => .saxZp b,
   fun _ _ => .dey,
   fun b _ => .nopImm 0x89 b,
   fun _ _ => .txa,
   fun b _ => .xaaImm b,
   fun lo hi => .styAbs (word16 hi lo),
   fun lo hi => .staAbs (word16 hi lo),
   fun lo hi => .stxAbs (word16 hi lo),
   fun lo hi => .saxAbs (word16 hi lo)]

/-- How the opcodes `$90` to `$9F` read their operand bytes (rules R100, R102). -/
def instrRows9 : List (Byte → Byte → Instr) :=
  [fun b _ => .bcc b,
   fun b _ => .staIndY b,
   fun _ _ => .jam 0x92,
   fun b _ => .ahxIndY b,
   fun b _ => .styZpX b,
   fun b _ => .staZpX b,
   fun b _ => .stxZpY b,
   fun b _ => .saxZpY b,
   fun _ _ => .tya,
   fun lo hi => .staAbsY (word16 hi lo),
   fun _ _ => .txs,
   fun lo hi => .tasAbsY (word16 hi lo),
   fun lo hi => .shyAbsX (word16 hi lo),
   fun lo hi => .staAbsX (word16 hi lo),
   fun lo hi => .shxAbsY (word16 hi lo),
   fun lo hi => .ahxAbsY (word16 hi lo)]

/-- How the opcodes `$A0` to `$AF` read their operand bytes (rules R100, R102). -/
def instrRowsA : List (Byte → Byte → Instr) :=
  [fun b _ => .ldyImm b,
   fun b _ => .ldaIndX b,
   fun b _ => .ldxImm b,
   fun b _ => .laxIndX b,
   fun b _ => .ldyZp b,
   fun b _ => .ldaZp b,
   fun b _ => .ldxZp b,
   fun b _ => .laxZp b,
   fun _ _ => .tay,
   fun b _ => .ldaImm b,
   fun _ _ => .tax,
   fun b _ => .lxaImm b,
   fun lo hi => .ldyAbs (word16 hi lo),
   fun lo hi => .ldaAbs (word16 hi lo),
   fun lo hi => .ldxAbs (word16 hi lo),
   fun lo hi => .laxAbs (word16 hi lo)]

/-- How the opcodes `$B0` to `$BF` read their operand bytes (rules R100, R102). -/
def instrRowsB : List (Byte → Byte → Instr) :=
  [fun b _ => .bcs b,
   fun b _ => .ldaIndY b,
   fun _ _ => .jam 0xB2,
   fun b _ => .laxIndY b,
   fun b _ => .ldyZpX b,
   fun b _ => .ldaZpX b,
   fun b _ => .ldxZpY b,
   fun b _ => .laxZpY b,
   fun _ _ => .clv,
   fun lo hi => .ldaAbsY (word16 hi lo),
   fun _ _ => .tsx,
   fun lo hi => .lasAbsY (word16 hi lo),
   fun lo hi => .ldyAbsX (word16 hi lo),
   fun lo hi => .ldaAbsX (word16 hi lo),
   fun lo hi => .ldxAbsY (word16 hi lo),
   fun lo hi => .laxAbsY (word16 hi lo)]

/-- How the opcodes `$C0` to `$CF` read their operand bytes (rules R100, R102). -/
def instrRowsC : List (Byte → Byte → Instr) :=
  [fun b _ => .cpyImm b,
   fun b _ => .cmpIndX b,
   fun b _ => .nopImm 0xC2 b,
   fun b _ => .dcpIndX b,
   fun b _ => .cpyZp b,
   fun b _ => .cmpZp b,
   fun b _ => .decZp b,
   fun b _ => .dcpZp b,
   fun _ _ => .iny,
   fun b _ => .cmpImm b,
   fun _ _ => .dex,
   fun b _ => .axsImm b,
   fun lo hi => .cpyAbs (word16 hi lo),
   fun lo hi => .cmpAbs (word16 hi lo),
   fun lo hi => .decAbs (word16 hi lo),
   fun lo hi => .dcpAbs (word16 hi lo)]

/-- How the opcodes `$D0` to `$DF` read their operand bytes (rules R100, R102). -/
def instrRowsD : List (Byte → Byte → Instr) :=
  [fun b _ => .bne b,
   fun b _ => .cmpIndY b,
   fun _ _ => .jam 0xD2,
   fun b _ => .dcpIndY b,
   fun b _ => .nopZpX 0xD4 b,
   fun b _ => .cmpZpX b,
   fun b _ => .decZpX b,
   fun b _ => .dcpZpX b,
   fun _ _ => .cld,
   fun lo hi => .cmpAbsY (word16 hi lo),
   fun _ _ => .nopImp 0xDA,
   fun lo hi => .dcpAbsY (word16 hi lo),
   fun lo hi => .nopAbsX 0xDC (word16 hi lo),
   fun lo hi => .cmpAbsX (word16 hi lo),
   fun lo hi => .decAbsX (word16 hi lo),
   fun lo hi => .dcpAbsX (word16 hi lo)]

/-- How the opcodes `$E0` to `$EF` read their operand bytes (rules R100, R102). -/
def instrRowsE : List (Byte → Byte → Instr) :=
  [fun b _ => .cpxImm b,
   fun b _ => .sbcIndX b,
   fun b _ => .nopImm 0xE2 b,
   fun b _ => .isbIndX b,
   fun b _ => .cpxZp b,
   fun b _ => .sbcZp b,
   fun b _ => .incZp b,
   fun b _ => .isbZp b,
   fun _ _ => .inx,
   fun b _ => .sbcImm b,
   fun _ _ => .nop,
   fun b _ => .sbcImmEB b,
   fun lo hi => .cpxAbs (word16 hi lo),
   fun lo hi => .sbcAbs (word16 hi lo),
   fun lo hi => .incAbs (word16 hi lo),
   fun lo hi => .isbAbs (word16 hi lo)]

/-- How the opcodes `$F0` to `$FF` read their operand bytes (rules R100, R102). -/
def instrRowsF : List (Byte → Byte → Instr) :=
  [fun b _ => .beq b,
   fun b _ => .sbcIndY b,
   fun _ _ => .jam 0xF2,
   fun b _ => .isbIndY b,
   fun b _ => .nopZpX 0xF4 b,
   fun b _ => .sbcZpX b,
   fun b _ => .incZpX b,
   fun b _ => .isbZpX b,
   fun _ _ => .sed,
   fun lo hi => .sbcAbsY (word16 hi lo),
   fun _ _ => .nopImp 0xFA,
   fun lo hi => .isbAbsY (word16 hi lo),
   fun lo hi => .nopAbsX 0xFC (word16 hi lo),
   fun lo hi => .sbcAbsX (word16 hi lo),
   fun lo hi => .incAbsX (word16 hi lo),
   fun lo hi => .isbAbsX (word16 hi lo)]

/-- For each opcode byte, by its two digits, the instruction its one or two operand bytes give. -/
def instrBlocks : List (List (Byte → Byte → Instr)) :=
  [instrRows0, instrRows1, instrRows2, instrRows3, instrRows4, instrRows5, instrRows6, instrRows7,
   instrRows8, instrRows9, instrRowsA, instrRowsB, instrRowsC, instrRowsD, instrRowsE, instrRowsF]

theorem instrBlocks_length : ∀ b ∈ instrBlocks, b.length = 16 := by
  simp only [instrBlocks, List.forall_mem_cons]; refine ⟨rfl, rfl, rfl, rfl, rfl, rfl, rfl, rfl, rfl, rfl, rfl, rfl, rfl, rfl, rfl, rfl, ?_⟩
  simp

/-- The instruction of an opcode byte and the two bytes after it; an operand byte the opcode's length
does not reach is not used. -/
def decodeOp (op b1 b2 : Byte) : Instr :=
  ((instrBlocks[op.toNat / 16]'(by have := op.isLt; simp only [instrBlocks, List.length_cons, List.length_nil]; omega))[
    op.toNat % 16]'(by rw [instrBlocks_length _ (List.getElem_mem _)]; omega)) b1 b2

/-- Why bytes are not an instruction. Every opcode byte is one (rule R103), so only missing bytes are
rejected. -/
inductive DecodeError where
  /-- There is no opcode byte. -/
  | noBytes
  /-- The opcode's length asks for more bytes than there are. -/
  | truncated (op : Byte)
  deriving DecidableEq, Repr

/-- What decoding a list of bytes gives: an instruction with the bytes left over, or a rejection. -/
inductive Decoded where
  | ok (i : Instr) (rest : List Byte)
  | rejected (e : DecodeError)
  deriving DecidableEq, Repr

/-- The decoder (rules R100 to R103): total on any bytes. -/
def decode : List Byte → Decoded
  | [] => .rejected .noBytes
  | op :: rest =>
    match (opcodeRow op).length, rest with
    | 1, rest => .ok (decodeOp op 0 0) rest
    | 2, b1 :: rest => .ok (decodeOp op b1 0) rest
    | 3, b1 :: b2 :: rest => .ok (decodeOp op b1 b2) rest
    | _, _ => .rejected (.truncated op)

/-- The encoder: the bytes of an instruction in memory order, from the encoding column of the table. -/
def encode : Instr → List Byte
  | .brk => [0x00#8]
  | .oraIndX a => [0x01#8, a]
  | .jam op => [op]
  | .sloIndX a => [0x03#8, a]
  | .nopZp op a => [op, a]
  | .oraZp a => [0x05#8, a]
  | .aslZp a => [0x06#8, a]
  | .sloZp a => [0x07#8, a]
  | .php => [0x08#8]
  | .oraImm m => [0x09#8, m]
  | .aslAcc => [0x0A#8]
  | .ancImm op m => [op, m]
  | .nopAbs w => [0x0C#8, loByte w, hiByte w]
  | .oraAbs w => [0x0D#8, loByte w, hiByte w]
  | .aslAbs w => [0x0E#8, loByte w, hiByte w]
  | .sloAbs w => [0x0F#8, loByte w, hiByte w]
  | .bpl d => [0x10#8, d]
  | .oraIndY a => [0x11#8, a]
  | .sloIndY a => [0x13#8, a]
  | .nopZpX op a => [op, a]
  | .oraZpX a => [0x15#8, a]
  | .aslZpX a => [0x16#8, a]
  | .sloZpX a => [0x17#8, a]
  | .clc => [0x18#8]
  | .oraAbsY w => [0x19#8, loByte w, hiByte w]
  | .nopImp op => [op]
  | .sloAbsY w => [0x1B#8, loByte w, hiByte w]
  | .nopAbsX op w => [op, loByte w, hiByte w]
  | .oraAbsX w => [0x1D#8, loByte w, hiByte w]
  | .aslAbsX w => [0x1E#8, loByte w, hiByte w]
  | .sloAbsX w => [0x1F#8, loByte w, hiByte w]
  | .jsrAbs w => [0x20#8, loByte w, hiByte w]
  | .andIndX a => [0x21#8, a]
  | .rlaIndX a => [0x23#8, a]
  | .bitZp a => [0x24#8, a]
  | .andZp a => [0x25#8, a]
  | .rolZp a => [0x26#8, a]
  | .rlaZp a => [0x27#8, a]
  | .plp => [0x28#8]
  | .andImm m => [0x29#8, m]
  | .rolAcc => [0x2A#8]
  | .bitAbs w => [0x2C#8, loByte w, hiByte w]
  | .andAbs w => [0x2D#8, loByte w, hiByte w]
  | .rolAbs w => [0x2E#8, loByte w, hiByte w]
  | .rlaAbs w => [0x2F#8, loByte w, hiByte w]
  | .bmi d => [0x30#8, d]
  | .andIndY a => [0x31#8, a]
  | .rlaIndY a => [0x33#8, a]
  | .andZpX a => [0x35#8, a]
  | .rolZpX a => [0x36#8, a]
  | .rlaZpX a => [0x37#8, a]
  | .sec => [0x38#8]
  | .andAbsY w => [0x39#8, loByte w, hiByte w]
  | .rlaAbsY w => [0x3B#8, loByte w, hiByte w]
  | .andAbsX w => [0x3D#8, loByte w, hiByte w]
  | .rolAbsX w => [0x3E#8, loByte w, hiByte w]
  | .rlaAbsX w => [0x3F#8, loByte w, hiByte w]
  | .rti => [0x40#8]
  | .eorIndX a => [0x41#8, a]
  | .sreIndX a => [0x43#8, a]
  | .eorZp a => [0x45#8, a]
  | .lsrZp a => [0x46#8, a]
  | .sreZp a => [0x47#8, a]
  | .pha => [0x48#8]
  | .eorImm m => [0x49#8, m]
  | .lsrAcc => [0x4A#8]
  | .alrImm m => [0x4B#8, m]
  | .jmpAbs w => [0x4C#8, loByte w, hiByte w]
  | .eorAbs w => [0x4D#8, loByte w, hiByte w]
  | .lsrAbs w => [0x4E#8, loByte w, hiByte w]
  | .sreAbs w => [0x4F#8, loByte w, hiByte w]
  | .bvc d => [0x50#8, d]
  | .eorIndY a => [0x51#8, a]
  | .sreIndY a => [0x53#8, a]
  | .eorZpX a => [0x55#8, a]
  | .lsrZpX a => [0x56#8, a]
  | .sreZpX a => [0x57#8, a]
  | .cli => [0x58#8]
  | .eorAbsY w => [0x59#8, loByte w, hiByte w]
  | .sreAbsY w => [0x5B#8, loByte w, hiByte w]
  | .eorAbsX w => [0x5D#8, loByte w, hiByte w]
  | .lsrAbsX w => [0x5E#8, loByte w, hiByte w]
  | .sreAbsX w => [0x5F#8, loByte w, hiByte w]
  | .rts => [0x60#8]
  | .adcIndX a => [0x61#8, a]
  | .rraIndX a => [0x63#8, a]
  | .adcZp a => [0x65#8, a]
  | .rorZp a => [0x66#8, a]
  | .rraZp a => [0x67#8, a]
  | .pla => [0x68#8]
  | .adcImm m => [0x69#8, m]
  | .rorAcc => [0x6A#8]
  | .arrImm m => [0x6B#8, m]
  | .jmpInd w => [0x6C#8, loByte w, hiByte w]
  | .adcAbs w => [0x6D#8, loByte w, hiByte w]
  | .rorAbs w => [0x6E#8, loByte w, hiByte w]
  | .rraAbs w => [0x6F#8, loByte w, hiByte w]
  | .bvs d => [0x70#8, d]
  | .adcIndY a => [0x71#8, a]
  | .rraIndY a => [0x73#8, a]
  | .adcZpX a => [0x75#8, a]
  | .rorZpX a => [0x76#8, a]
  | .rraZpX a => [0x77#8, a]
  | .sei => [0x78#8]
  | .adcAbsY w => [0x79#8, loByte w, hiByte w]
  | .rraAbsY w => [0x7B#8, loByte w, hiByte w]
  | .adcAbsX w => [0x7D#8, loByte w, hiByte w]
  | .rorAbsX w => [0x7E#8, loByte w, hiByte w]
  | .rraAbsX w => [0x7F#8, loByte w, hiByte w]
  | .nopImm op m => [op, m]
  | .staIndX a => [0x81#8, a]
  | .saxIndX a => [0x83#8, a]
  | .styZp a => [0x84#8, a]
  | .staZp a => [0x85#8, a]
  | .stxZp a => [0x86#8, a]
  | .saxZp a => [0x87#8, a]
  | .dey => [0x88#8]
  | .txa => [0x8A#8]
  | .xaaImm m => [0x8B#8, m]
  | .styAbs w => [0x8C#8, loByte w, hiByte w]
  | .staAbs w => [0x8D#8, loByte w, hiByte w]
  | .stxAbs w => [0x8E#8, loByte w, hiByte w]
  | .saxAbs w => [0x8F#8, loByte w, hiByte w]
  | .bcc d => [0x90#8, d]
  | .staIndY a => [0x91#8, a]
  | .ahxIndY a => [0x93#8, a]
  | .styZpX a => [0x94#8, a]
  | .staZpX a => [0x95#8, a]
  | .stxZpY a => [0x96#8, a]
  | .saxZpY a => [0x97#8, a]
  | .tya => [0x98#8]
  | .staAbsY w => [0x99#8, loByte w, hiByte w]
  | .txs => [0x9A#8]
  | .tasAbsY w => [0x9B#8, loByte w, hiByte w]
  | .shyAbsX w => [0x9C#8, loByte w, hiByte w]
  | .staAbsX w => [0x9D#8, loByte w, hiByte w]
  | .shxAbsY w => [0x9E#8, loByte w, hiByte w]
  | .ahxAbsY w => [0x9F#8, loByte w, hiByte w]
  | .ldyImm m => [0xA0#8, m]
  | .ldaIndX a => [0xA1#8, a]
  | .ldxImm m => [0xA2#8, m]
  | .laxIndX a => [0xA3#8, a]
  | .ldyZp a => [0xA4#8, a]
  | .ldaZp a => [0xA5#8, a]
  | .ldxZp a => [0xA6#8, a]
  | .laxZp a => [0xA7#8, a]
  | .tay => [0xA8#8]
  | .ldaImm m => [0xA9#8, m]
  | .tax => [0xAA#8]
  | .lxaImm m => [0xAB#8, m]
  | .ldyAbs w => [0xAC#8, loByte w, hiByte w]
  | .ldaAbs w => [0xAD#8, loByte w, hiByte w]
  | .ldxAbs w => [0xAE#8, loByte w, hiByte w]
  | .laxAbs w => [0xAF#8, loByte w, hiByte w]
  | .bcs d => [0xB0#8, d]
  | .ldaIndY a => [0xB1#8, a]
  | .laxIndY a => [0xB3#8, a]
  | .ldyZpX a => [0xB4#8, a]
  | .ldaZpX a => [0xB5#8, a]
  | .ldxZpY a => [0xB6#8, a]
  | .laxZpY a => [0xB7#8, a]
  | .clv => [0xB8#8]
  | .ldaAbsY w => [0xB9#8, loByte w, hiByte w]
  | .tsx => [0xBA#8]
  | .lasAbsY w => [0xBB#8, loByte w, hiByte w]
  | .ldyAbsX w => [0xBC#8, loByte w, hiByte w]
  | .ldaAbsX w => [0xBD#8, loByte w, hiByte w]
  | .ldxAbsY w => [0xBE#8, loByte w, hiByte w]
  | .laxAbsY w => [0xBF#8, loByte w, hiByte w]
  | .cpyImm m => [0xC0#8, m]
  | .cmpIndX a => [0xC1#8, a]
  | .dcpIndX a => [0xC3#8, a]
  | .cpyZp a => [0xC4#8, a]
  | .cmpZp a => [0xC5#8, a]
  | .decZp a => [0xC6#8, a]
  | .dcpZp a => [0xC7#8, a]
  | .iny => [0xC8#8]
  | .cmpImm m => [0xC9#8, m]
  | .dex => [0xCA#8]
  | .axsImm m => [0xCB#8, m]
  | .cpyAbs w => [0xCC#8, loByte w, hiByte w]
  | .cmpAbs w => [0xCD#8, loByte w, hiByte w]
  | .decAbs w => [0xCE#8, loByte w, hiByte w]
  | .dcpAbs w => [0xCF#8, loByte w, hiByte w]
  | .bne d => [0xD0#8, d]
  | .cmpIndY a => [0xD1#8, a]
  | .dcpIndY a => [0xD3#8, a]
  | .cmpZpX a => [0xD5#8, a]
  | .decZpX a => [0xD6#8, a]
  | .dcpZpX a => [0xD7#8, a]
  | .cld => [0xD8#8]
  | .cmpAbsY w => [0xD9#8, loByte w, hiByte w]
  | .dcpAbsY w => [0xDB#8, loByte w, hiByte w]
  | .cmpAbsX w => [0xDD#8, loByte w, hiByte w]
  | .decAbsX w => [0xDE#8, loByte w, hiByte w]
  | .dcpAbsX w => [0xDF#8, loByte w, hiByte w]
  | .cpxImm m => [0xE0#8, m]
  | .sbcIndX a => [0xE1#8, a]
  | .isbIndX a => [0xE3#8, a]
  | .cpxZp a => [0xE4#8, a]
  | .sbcZp a => [0xE5#8, a]
  | .incZp a => [0xE6#8, a]
  | .isbZp a => [0xE7#8, a]
  | .inx => [0xE8#8]
  | .sbcImm m => [0xE9#8, m]
  | .nop => [0xEA#8]
  | .sbcImmEB m => [0xEB#8, m]
  | .cpxAbs w => [0xEC#8, loByte w, hiByte w]
  | .sbcAbs w => [0xED#8, loByte w, hiByte w]
  | .incAbs w => [0xEE#8, loByte w, hiByte w]
  | .isbAbs w => [0xEF#8, loByte w, hiByte w]
  | .beq d => [0xF0#8, d]
  | .sbcIndY a => [0xF1#8, a]
  | .isbIndY a => [0xF3#8, a]
  | .sbcZpX a => [0xF5#8, a]
  | .incZpX a => [0xF6#8, a]
  | .isbZpX a => [0xF7#8, a]
  | .sed => [0xF8#8]
  | .sbcAbsY w => [0xF9#8, loByte w, hiByte w]
  | .isbAbsY w => [0xFB#8, loByte w, hiByte w]
  | .sbcAbsX w => [0xFD#8, loByte w, hiByte w]
  | .incAbsX w => [0xFE#8, loByte w, hiByte w]
  | .isbAbsX w => [0xFF#8, loByte w, hiByte w]

/-- The opcode byte of an instruction. -/
def Instr.opcode (i : Instr) : Byte := (encode i).headD 0

/-- The table entry of an instruction. -/
def Instr.row (i : Instr) : Row := opcodeRow i.opcode

/-- The instruction kind of an instruction, as the opcode table gives it. -/
def Instr.kind (i : Instr) : Mnemonic := i.row.kind

/-- The operand an addressing mode makes of the two bytes after the opcode (rule R102). -/
def Operand.ofBytes (mode : Mode) (b1 b2 : Byte) : Operand :=
  match mode with
  | .implied => .implied
  | .accumulator => .accumulator
  | .immediate => .immediate b1
  | .zeroPage => .memory (.zeroPage b1)
  | .zeroPageX => .memory (.zeroPageX b1)
  | .zeroPageY => .memory (.zeroPageY b1)
  | .relative => .relative b1
  | .absolute => .memory (.absolute (word16 b2 b1))
  | .absoluteX => .memory (.absoluteX (word16 b2 b1))
  | .absoluteY => .memory (.absoluteY (word16 b2 b1))
  | .indirect => .indirect (word16 b2 b1)
  | .indexedIndirect => .memory (.indexedIndirect b1)
  | .indirectIndexed => .memory (.indirectIndexed b1)

/-- Byte `k` of an instruction's encoding, 0 past its end. -/
def Instr.encodedByte (i : Instr) (k : Nat) : Byte := (encode i).getD k 0

/-- The operand of an instruction: its table entry's mode over its encoded operand bytes. -/
def Instr.operand (i : Instr) : Operand :=
  Operand.ofBytes i.row.mode (i.encodedByte 1) (i.encodedByte 2)

/-- What an operand is to a read instruction: an immediate value or a byte of memory (rule R135). -/
def Operand.source : Operand → Option Source
  | .immediate m => some (.immediate m)
  | .memory o => some (.memory o)
  | _ => none

/-- What an operand is to a read-modify-write instruction (rules R135, R190). -/
def Operand.target : Operand → Option Target
  | .accumulator => some .accumulator
  | .memory o => some (.memory o)
  | _ => none

/-- The three bytes at the start of an instruction whose bits, numbered as spec/opcode_table.json numbers
them, are `w`: byte `k` of the instruction is bits `8k+7` down to `8k`, and every bit from `nbits` up is 0. -/
def tableBytes (nbits w : Nat) : List Byte :=
  let v := w % 2 ^ nbits
  [BitVec.ofNat 8 v, BitVec.ofNat 8 (v / 256), BitVec.ofNat 8 (v / 65536)]

/-- What the decoder reads from an instruction word given as the opcode table numbers its bits. -/
def decodeTableWord (nbits w : Nat) : Option Instr :=
  match decode (tableBytes nbits w) with
  | .ok i _ => some i
  | .rejected _ => none

end Sys2Proof
end

