-- ==== Sys2Proof/Config.lean ====
section
/-! DEFINITION. What the spec leaves to the implementation (spec/92_eei_decisions.md, named
parameters): the open values, each a constant with no body, and the types of the two choices that
the machine carries as data (`Params` in Machine/State.lean). -/

namespace Sys2Proof

/-- `CPU_OPEN_BUS`: the one fixed byte every undecoded CPU address reads as (rule R89, D17). Its value
is open, so it has no body. -/
opaque Config.cpuOpenBus : Byte

/-- `EXTERNAL_IO`: the byte an external-device read of `$4000-$4017` returns, one free value per read
(rule R57, D18); the argument is the machine's draw counter. -/
opaque Config.externalIo : Nat → Byte

/-- The picture unit's open-bus byte under `PPU_OPEN_BUS_MODEL = draw` (rule R413, D24), one free value
per read; the argument is the machine's draw counter. -/
opaque Config.ppuOpenBus : Nat → Byte

/-- The chip-dependent constant `magic` of `XAA` (rule R258). -/
opaque Config.xaaMagic : Byte

/-- The chip-dependent constant `magic` of `LXA` (rule R259). -/
opaque Config.lxaMagic : Byte

/-- The corrupted address an unstable store writes to when its index crosses a page (rules R260, R262,
R263): the spec names the corruption and gives no address; the argument is the draw counter. -/
opaque Config.unstableAddr : Nat → Addr

/-- How many ticks beyond its first an unstable opcode costs where a model admits it: its rows of
rule R104 have no cycle count. -/
opaque Config.unstableCost : Byte → Nat

/-- The values of `PPU_OPEN_BUS_MODEL` (rule R413, D24). -/
inductive PpuOpenBusModel where
  /-- Each open-bus bit is any value (the spec's default). -/
  | draw
  /-- The bits of the last byte written to any picture-unit register. -/
  | latch
  deriving DecidableEq, Repr

/-- The values of `UNSTABLE_OPCODES` this model knows (rule R240, D4). -/
inductive UnstableOpcodes where
  /-- The eight unstable opcodes set the `refused` mark (the spec's default). -/
  | refuse
  /-- The eight opcodes run as rules R258 to R264 quote the chip, every open value free. -/
  | silicon
  deriving DecidableEq, Repr

end Sys2Proof
end

