-- ==== Sys2Proof/Machine/State.lean ====
section
/-! DEFINITION. The state of the whole machine as plain data: the processor core (spec/10_state.md), the picture
unit (rule R400 of spec/65_ppu.md), RAM, and the cartridge with its mapper registers (spec/20_memory.md);
the reasons a step can stop; and the state at power-on and reset (rules R36, R438, R500). -/

namespace Sys2Proof.Machine

/-- A storage of `w`-bit cells, keyed by the offset inside it. Canonical form (`Memory.wf`): offsets strictly
rising and no cell equal to what an unlisted offset reads as, so equal contents are equal lists. A
`Memory 8` is a list of `Host.Cell`. -/
abbrev Memory (w : Nat) := List (Nat × BitVec w)

/-- What an unlisted offset of any storage reads as: 0. The spec leaves RAM, OAM, nametable, palette, CHR
RAM and work RAM at power-on open (`RAM_INIT`, rule R55, D29): DESIGN CHOICE, assumption 2. -/
abbrev Memory.unlisted (w : Nat) : BitVec w := 0

/-- The six status flags, each one bit (rule R23). `B` and `U` are not state (rule R26). -/
structure Flags where
  /-- Negative. -/
  n : Bool
  /-- Overflow. -/
  v : Bool
  /-- Decimal: stored, no effect on arithmetic (rule R160). -/
  d : Bool
  /-- InterruptDisable. -/
  i : Bool
  /-- Zero. -/
  z : Bool
  /-- Carry. -/
  c : Bool
  deriving DecidableEq, Repr

/-- The mapper variants of this spec (rules R72, R80): number 0 and the serial-register variant, number 1. -/
inductive MapperKind where
  | variant0
  | serial
  deriving DecidableEq, Repr

/-- How the four logical nametables share the 2 KiB nametable RAM (rule R70). -/
inductive Mirroring where
  | horizontal | vertical | singleLower | singleUpper
  deriving DecidableEq, Repr

/-- The cartridge: the banks of the image, the writable memories on it, and the bank-select registers of
variant 1 (rules R72 to R79, R90 to R93). Variant 0 has no registers. -/
structure Cartridge where
  mapper       : MapperKind
  /-- Number of 16 KiB PRG pages. -/
  prgPages     : Nat
  /-- Number of 8 KiB CHR pages the image declares; 0 means 8 KiB of CHR RAM (rules R77, R92). -/
  chrPages     : Nat
  /-- The header's mirroring flag: set selects vertical on variant 0 (rule R78). -/
  verticalFlag : Bool
  /-- The parameter `MAPPER0_WRAM = present` (rule R76, D31). -/
  mapper0Wram  : Bool
  /-- PRG banks, offset `16384 * bank + a[13:0]`. -/
  prg          : Memory 8
  /-- CHR banks or CHR RAM, by offset. -/
  chr          : Memory 8
  /-- The 8 KiB work RAM at `$6000-$7FFF`, where there is one (rules R76, R93). -/
  wram         : Memory 8
  /-- Variant 1: the serial shift register and how many bits it holds (rule R79). -/
  shift        : BitVec 5
  shiftCount   : Nat
  /-- Variant 1: control, CHR bank 0, CHR bank 1 and PRG bank registers (rule R90). -/
  control      : BitVec 5
  chrBank0     : BitVec 5
  chrBank1     : BitVec 5
  prgBank      : BitVec 5
  deriving DecidableEq, Repr

/-- One sprite as its four OAM bytes (rule R437), an entry of the secondary buffer (rule R430). -/
structure SpriteEntry where
  y    : Byte
  tile : Byte
  attr : Byte
  xpos : Byte
  deriving DecidableEq, Repr

/-- One sprite output slot: `spr_lo[k]`, `spr_hi[k]`, `spr_attr[k]`, `spr_x[k]` (rule R432). -/
structure SpriteSlot where
  lo   : Byte
  hi   : Byte
  attr : Byte
  xpos : Byte
  deriving DecidableEq, Repr

/-- The picture unit's state, entry by entry as rule R400 lists it. -/
structure Ppu where
  /-- The index of the next tick of the current frame, 0 to 89341. -/
  tick           : Nat
  oddFrame       : Bool
  ctrl           : Byte
  mask           : Byte
  vblank         : Bool
  sprite0Hit     : Bool
  spriteOverflow : Bool
  oamAddr        : Byte
  oam            : Memory 8
  /-- Current and temporary VRAM addresses, loopy layout (rule R409). -/
  v              : BitVec 15
  t              : BitVec 15
  /-- Fine X scroll. -/
  x              : BitVec 3
  /-- The shared write toggle of Scroll and Address. -/
  w              : Bool
  readBuffer     : Byte
  ntLatch        : Byte
  atLatch        : BitVec 2
  ptLoLatch      : Byte
  ptHiLatch      : Byte
  bgLo           : BitVec 16
  bgHi           : BitVec 16
  atLo           : BitVec 16
  atHi           : BitVec 16
  /-- The secondary sprite buffer, at most 8 entries, in OAM order. -/
  sec            : List SpriteEntry
  secHas0        : Bool
  slots          : Vector SpriteSlot 8
  sprCount       : Nat
  sprHas0        : Bool
  suppress       : Bool
  vblankDelayed  : Bool
  nmiOut         : Bool
  ioLatch        : Byte
  /-- Nametable RAM, 2048 cells. -/
  ntRam          : Memory 8
  /-- Palette RAM, 32 six-bit cells. -/
  pal            : Memory 6
  /-- The frame buffer of palette indices, cell `256 * line + column`. -/
  frame          : Memory 6
  deriving DecidableEq, Repr

/-- The two choices of spec/92_eei_decisions.md that are fixed for a machine and given a default there. They
are configuration carried as data, so that a statement about every state is about every choice; no step
changes them. -/
structure Params where
  ppuOpenBus : PpuOpenBusModel
  unstable   : UnstableOpcodes
  deriving DecidableEq, Repr

/-- The state of the machine (rules R20 to R36, R55, R400). -/
structure State where
  /-- Accumulator and index registers (rule R20). -/
  a            : Byte
  x            : Byte
  y            : Byte
  /-- Stack pointer into page `$0100` (rule R21). -/
  sp           : Byte
  /-- Program counter (rule R22). -/
  pc           : Addr
  /-- Status flags (rule R23). -/
  flags        : Flags
  /-- Cycle counter, unbounded and never reset (rule R28). -/
  cycles       : Nat
  /-- Remaining-cycle counter (rule R29). -/
  remaining    : Nat
  /-- NMI edge latch (rules R30, R302). -/
  nmiPending   : Bool
  /-- Reset request latch (rules R30, R304). -/
  resetPending : Bool
  /-- The level of the IRQ input for the next tick, set by the environment between steps (rules R30, R303). -/
  irqLine      : Bool
  /-- Set by a JAM opcode, cleared by Reset only (rule R31). -/
  halted       : Bool
  /-- The refusal mark, never cleared (rule R32). -/
  refused      : Bool
  /-- Internal RAM, 2048 cells (rule R55). -/
  ram          : Memory 8
  cart         : Cartridge
  ppu          : Ppu
  params       : Params
  /-- The model's own field: how many free values have been drawn (reads of `$4000-$4017`, picture-unit
  open-bus reads, unstable stores). It feeds the constants of Config.lean that have no body. -/
  draws        : Nat
  deriving DecidableEq, Repr

/-- Why the machine could stop with a fault: for no reason. "Inside the running core there is no error path"
(rules R9, R300), so the type is empty. Safe: nothing is claimed to stop that the chip runs. -/
inductive Fault : Type where
  deriving DecidableEq, Repr

/-- Why a step has no outcome. -/
inductive Refusal where
  /-- Raised by an arm of `exec` whose instruction has no meaning yet. Safe: no claim can be made. -/
  | notModelled (mnemonic : String)
  /-- Raised by `step` on a state whose `refused` mark is set: "A state with refused = true takes no further core
  step" (rule R32). Safe: no claim can be made about a run that reaches an unstable opcode. -/
  | refusedState
  deriving DecidableEq, Repr

/-- What running an instruction or a step gives. -/
abbrev Result := Host.Outcome State Fault Refusal

/-- All six flags 0, as at power-on (rule R36). -/
def Flags.powerOn : Flags := ⟨false, false, false, false, false, false⟩

/-- The parameter defaults of spec/92_eei_decisions.md. -/
def Params.default : Params := ⟨.draw, .refuse⟩

/-- `RAM_INIT`: what the memories that are not on the cartridge hold at power-on, any contents (rules R55, R69,
R71, R438; D29). -/
structure RamInit where
  ram   : Memory 8
  oam   : Memory 8
  ntRam : Memory 8
  pal   : Memory 6
  deriving DecidableEq, Repr

/-- The picture unit at power-on (rule R438), its memories as `RAM_INIT` gives them. -/
def Ppu.powerOn (init : RamInit) : Ppu where
  tick := 0
  oddFrame := false
  ctrl := 0
  mask := 0
  vblank := false
  sprite0Hit := false
  spriteOverflow := false
  oamAddr := 0
  oam := init.oam
  v := 0
  t := 0
  x := 0
  w := false
  readBuffer := 0
  ntLatch := 0
  atLatch := 0
  ptLoLatch := 0
  ptHiLatch := 0
  bgLo := 0
  bgHi := 0
  atLo := 0
  atHi := 0
  sec := []
  secHas0 := false
  slots := Vector.replicate 8 ⟨0, 0, 0, 0⟩
  sprCount := 0
  sprHas0 := false
  suppress := false
  vblankDelayed := false
  nmiOut := false
  ioLatch := 0
  ntRam := init.ntRam
  pal := init.pal
  frame := []

/-- The mapper's registers at power-on: control `$0C`, the shift register empty, the bank registers 0 (rule R90);
the banks and memories as they are. -/
def Cartridge.powerOn (c : Cartridge) : Cartridge :=
  { c with shift := 0, shiftCount := 0, control := 0x0C, chrBank0 := 0, chrBank1 := 0, prgBank := 0 }

/-- Power-on, the construction of the machine with a loaded cartridge (rules R36, R500). The first tick then
services the pending Reset. -/
def State.powerOn (cart : Cartridge) (init : RamInit) (params : Params) : State where
  a := 0
  x := 0
  y := 0
  sp := 0
  pc := 0
  flags := Flags.powerOn
  cycles := 0
  remaining := 0
  nmiPending := false
  resetPending := true
  irqLine := false
  halted := false
  refused := false
  ram := init.ram
  cart := cart.powerOn
  ppu := Ppu.powerOn init
  params := params
  draws := 0

/-- The cartridge of `State.reset`: variant 0, two PRG pages, one CHR page, horizontal mirroring, no work RAM,
every byte unlisted. DESIGN CHOICE, assumption 3: the spec has the cartridge given from outside. -/
def Cartridge.blank : Cartridge where
  mapper := .variant0
  prgPages := 2
  chrPages := 1
  verticalFlag := false
  mapper0Wram := false
  prg := []
  chr := []
  wram := []
  shift := 0
  shiftCount := 0
  control := 0x0C
  chrBank0 := 0
  chrBank1 := 0
  prgBank := 0

/-- Every memory with nothing listed (assumption 2). -/
def RamInit.unlisted : RamInit := ⟨[], [], [], []⟩

/-- The machine at power-on (rules R36, R438, R500), with the parameter defaults of spec/92_eei_decisions.md and
the blank cartridge. Its first seven steps are the Reset sequence (rules R500, R501). -/
def State.reset : State := State.powerOn Cartridge.blank RamInit.unlisted Params.default

end Sys2Proof.Machine
end

