-- ==== Sys2Proof/Machine/Flags.lean ====
section
/-! DEFINITION. Every flag computation of the core: the status byte (rules R24, R25), `SetNZ` (rule R8), the shared
adder and comparator (rules R161, R162), and the shifts and rotates (rules R191 to R194). A function that
computes a result returns it with the flags it leaves; the flags it does not name are unchanged. -/

namespace Sys2Proof.Machine

/-- `Pack(b) = {N, V, 1, b, D, I, Z, C}` (rule R24). -/
def Flags.pack (f : Flags) (b : Bool) : Byte :=
  BitVec.ofBool f.n ++ BitVec.ofBool f.v ++ BitVec.ofBool true ++ BitVec.ofBool b ++
    BitVec.ofBool f.d ++ BitVec.ofBool f.i ++ BitVec.ofBool f.z ++ BitVec.ofBool f.c

/-- `Unpack(byte)`: all six flags from their bits; bits 5 and 4 are ignored (rule R25). -/
def Flags.unpack (p : Byte) : Flags where
  n := bit p 7
  v := bit p 6
  d := bit p 3
  i := bit p 2
  z := bit p 1
  c := bit p 0

/-- `SetNZ(v)`: N is bit 7, Z is set when v is 0, no other flag (rule R8). -/
def Flags.setNZ (f : Flags) (v : Byte) : Flags := { f with n := bit v 7, z := decide (v = 0) }

/-- `AddWithCarry(a, b, C)` (rule R161): the 9-bit sum, carry its bit 8, overflow from the signs. D is not
read (rule R160). -/
def addWithCarry (a b : Byte) (f : Flags) : Byte × Flags :=
  let s9 : BitVec 9 := a.setWidth 9 + b.setWidth 9 + (BitVec.ofBool f.c).setWidth 9
  let r : Byte := s9.setWidth 8
  let v := bit (~~~(a ^^^ b) &&& (a ^^^ r)) 7
  (r, { f with c := s9.getLsbD 8, v := v }.setNZ r)

/-- `Compare(reg, m)` (rule R162): carry is `reg >= m` unsigned, N and Z from the 8-bit difference. -/
def compareFlags (reg m : Byte) (f : Flags) : Flags :=
  { f with c := decide (m.toNat ≤ reg.toNat), z := decide (reg = m), n := bit (reg - m) 7 }

/-- The shift of `ASL`: bit 7 to C, 0 into bit 0 (rule R191). -/
def shiftAsl (m : Byte) (f : Flags) : Byte × Flags := (m <<< 1, { f with c := bit m 7 })

/-- The shift of `LSR`: bit 0 to C, 0 into bit 7 (rule R192). -/
def shiftLsr (m : Byte) (f : Flags) : Byte × Flags := (m >>> 1, { f with c := bit m 0 })

/-- The rotate of `ROL`: bit 7 to C, the incoming C into bit 0 (rule R193). -/
def shiftRol (m : Byte) (f : Flags) : Byte × Flags :=
  ((m <<< 1) ||| (BitVec.ofBool f.c).setWidth 8, { f with c := bit m 7 })

/-- The rotate of `ROR`: bit 0 to C, the incoming C into bit 7 (rule R194). -/
def shiftRor (m : Byte) (f : Flags) : Byte × Flags :=
  ((m >>> 1) ||| ((BitVec.ofBool f.c).setWidth 8 <<< 7), { f with c := bit m 0 })

/-- `M + 1` modulo 256, no flag (rule R172). -/
def stepInc (m : Byte) (f : Flags) : Byte × Flags := (m + 1, f)

/-- `M - 1` modulo 256, no flag (rule R173). -/
def stepDec (m : Byte) (f : Flags) : Byte × Flags := (m - 1, f)

end Sys2Proof.Machine
end

