-- ==== Sys2Proof/Machine/Memory.lean ====
section
/-! DEFINITION. The operations over one storage of cells: read, write, the canonical form, and building a storage
from a list of bytes. Every memory of the machine goes through these (rule R82: a read gives the last value
written to that cell). -/

namespace Sys2Proof.Machine

/-- The cell at offset `k`; an unlisted offset reads as `Memory.unlisted`. -/
def Memory.read {w : Nat} : Memory w → Nat → BitVec w
  | [], _ => Memory.unlisted w
  | (a, v) :: rest, k => if a = k then v else Memory.read rest k

/-- The storage with the cell at offset `k` set to `v`. Writing what an unlisted offset reads as removes the
entry, so the canonical form is kept. -/
def Memory.write {w : Nat} : Memory w → Nat → BitVec w → Memory w
  | [], k, v => if v = Memory.unlisted w then [] else [(k, v)]
  | (a, b) :: rest, k, v =>
    if k < a then
      if v = Memory.unlisted w then (a, b) :: rest else (k, v) :: (a, b) :: rest
    else if k = a then
      if v = Memory.unlisted w then rest else (k, v) :: rest
    else
      (a, b) :: Memory.write rest k v

/-- Offsets strictly rising from `from` on and below `size`, and no cell that an unlisted offset reads as. -/
def Memory.wfFrom {w : Nat} (size : Nat) : Nat → Memory w → Bool
  | _, [] => true
  | low, (a, v) :: rest =>
    decide (low ≤ a) && decide (a < size) && !decide (v = Memory.unlisted w) && Memory.wfFrom size (a + 1) rest

/-- The canonical form of a storage of `size` cells. -/
def Memory.wf {w : Nat} (size : Nat) (m : Memory w) : Bool := Memory.wfFrom size 0 m

/-- The storage that holds the given cells from offset `k` on. -/
def Memory.ofListFrom {w : Nat} : Nat → List (BitVec w) → Memory w
  | _, [] => []
  | k, v :: rest => if v = Memory.unlisted w then Memory.ofListFrom (k + 1) rest else (k, v) :: Memory.ofListFrom (k + 1) rest

/-- The storage that holds the given cells from offset 0 on. -/
def Memory.ofList {w : Nat} (cells : List (BitVec w)) : Memory w := Memory.ofListFrom 0 cells

end Sys2Proof.Machine
end

