-- ==== Sys2Proof/Machine/Mapper.lean ====
section
/-! DEFINITION. The cartridge mapper: `TranslateCpu`, `TranslatePpu`, `NametableAddress`, `GetCpuAt`/`SetCpuAt`,
`GetPpuAt`/`SetPpuAt` of variants 0 and 1 (rules R70 to R79, R90 to R93). -/

namespace Sys2Proof.Machine

/-- Nametable mirroring: fixed by the header on variant 0 (rule R78), control bits 1:0 on variant 1 (rule R90). -/
def Cartridge.mirroring (c : Cartridge) : Mirroring :=
  match c.mapper with
  | .variant0 => if c.verticalFlag then .vertical else .horizontal
  | .serial =>
    match c.control.getLsbD 1, c.control.getLsbD 0 with
    | false, false => .singleLower
    | false, true => .singleUpper
    | true, false => .vertical
    | true, true => .horizontal

/-- `NametableAddress(a)`: the offset in nametable RAM of a picture-unit address, from its bits 11:0 (rule R70). -/
def nametableAddress (m : Mirroring) (a : BitVec 14) : BitVec 11 :=
  let o : BitVec 10 := a.extractLsb' 0 10
  match m with
  | .horizontal => a.extractLsb' 11 1 ++ o
  | .vertical => a.extractLsb' 10 1 ++ o
  | .singleLower => (0 : BitVec 1) ++ o
  | .singleUpper => (1 : BitVec 1) ++ o

/-- The 16 KiB PRG bank at a CPU address `$8000-$FFFF`: rule R75 for variant 0, rule R91 for variant 1. -/
def Cartridge.prgBankAt (c : Cartridge) (a : Addr) : Nat :=
  let upper := a.getLsbD 14
  match c.mapper with
  | .variant0 => (if upper then 1 else 0) % c.prgPages
  | .serial =>
    let p := (c.prgBank.extractLsb' 0 4).toNat
    match c.control.getLsbD 3, c.control.getLsbD 2 with
    | false, _ => (if upper then 2 * (p / 2) + 1 else 2 * (p / 2)) % c.prgPages
    | true, false => if upper then p % c.prgPages else 0
    | true, true => if upper then c.prgPages - 1 else p % c.prgPages

/-- `TranslateCpu(a)` for `a` in `$8000-$FFFF`: the PRG bank and the offset `a[13:0]` in it (rules R75, R91). -/
def Cartridge.translateCpu (c : Cartridge) (a : Addr) : Nat × Nat :=
  (c.prgBankAt a, (a.extractLsb' 0 14).toNat)

/-- How many 4 KiB CHR banks variant 1 has: 8 KiB of CHR RAM when the page count is 0 (rule R92). -/
def Cartridge.chrBanks4k (c : Cartridge) : Nat := if c.chrPages = 0 then 2 else 2 * c.chrPages

/-- `TranslatePpu(a)` for `a` in `$0000-$1FFF`: the CHR bank and the offset in it, in 8 KiB banks on variant 0
(rule R77) and 4 KiB banks on variant 1 (rule R92). -/
def Cartridge.translatePpu (c : Cartridge) (a : BitVec 14) : Nat × Nat :=
  match c.mapper with
  | .variant0 => (0, (a.extractLsb' 0 13).toNat)
  | .serial =>
    let upper := a.getLsbD 12
    let k := c.chrBanks4k
    let c0 := c.chrBank0.toNat
    let bank :=
      if c.control.getLsbD 4 then (if upper then c.chrBank1.toNat % k else c0 % k)
      else (if upper then 2 * (c0 / 2) + 1 else 2 * (c0 / 2)) % k
    (bank, (a.extractLsb' 0 12).toNat)

/-- The size of a CHR bank of the variant in use, in bytes. -/
def Cartridge.chrBankSize (c : Cartridge) : Nat :=
  match c.mapper with
  | .variant0 => 8192
  | .serial => 4096

/-- The offset in the CHR storage of a translated picture-unit address. -/
def Cartridge.chrOffset (c : Cartridge) (a : BitVec 14) : Nat :=
  (c.translatePpu a).1 * c.chrBankSize + (c.translatePpu a).2

/-- The offset in the PRG storage of a translated CPU address. -/
def Cartridge.prgOffset (c : Cartridge) (a : Addr) : Nat :=
  (c.translateCpu a).1 * 16384 + (c.translateCpu a).2

/-- Whether the cartridge has work RAM at `$6000-$7FFF` (rules R76, R93). -/
def Cartridge.hasWram (c : Cartridge) : Bool :=
  match c.mapper with
  | .variant0 => c.mapper0Wram
  | .serial => true

/-- What a cartridge-space address `$4020-$FFFF` reaches (rules R76, R93): a PRG bank, work RAM, or nothing. -/
inductive CartRegion where
  | prg (offset : Nat)
  | wram (offset : Nat)
  | undecoded
  deriving DecidableEq, Repr

/-- The cartridge's decode of a CPU address it is given (rules R60, R75, R76, R93). -/
def Cartridge.region (c : Cartridge) (a : Addr) : CartRegion :=
  if 0x8000 ≤ a.toNat then .prg (c.prgOffset a)
  else if 0x6000 ≤ a.toNat ∧ c.hasWram = true then .wram (a.toNat % 8192)
  else .undecoded

/-- `GetCpuAt(a)` (rules R72, R75, R76, R93). No read changes the cartridge (rule R74). -/
def Cartridge.getCpuAt (c : Cartridge) (a : Addr) : Byte :=
  match c.region a with
  | .prg k => c.prg.read k
  | .wram k => c.wram.read k
  | .undecoded => Config.cpuOpenBus

/-- Control bits 3:2 set to `%11`, the rest kept (rule R79). -/
def setPrgMode3 (control : BitVec 5) : BitVec 5 := control ||| 0b01100

/-- The fifth write: the 5-bit value goes to the register that bits 14:13 of the address select (rule R79). -/
def Cartridge.commit (c : Cartridge) (a : Addr) (value : BitVec 5) : Cartridge :=
  match a.getLsbD 14, a.getLsbD 13 with
  | false, false => { c with control := value }
  | false, true => { c with chrBank0 := value }
  | true, false => { c with chrBank1 := value }
  | true, true => { c with prgBank := value }

/-- A CPU write to `$8000-$FFFF` of variant 1 (rule R79): bit 7 empties the shift register and sets the PRG mode;
otherwise bit 0 enters at the top, and the fifth bit commits. -/
def Cartridge.serialWrite (c : Cartridge) (a : Addr) (v : Byte) : Cartridge :=
  if bit v 7 then
    { c with shift := 0, shiftCount := 0, control := setPrgMode3 c.control }
  else
    let value : BitVec 5 := v.extractLsb' 0 1 ++ c.shift.extractLsb' 1 4
    if c.shiftCount + 1 = 5 then
      { c with shift := 0, shiftCount := 0 }.commit a value
    else
      { c with shift := value, shiftCount := c.shiftCount + 1 }

/-- `SetCpuAt(a, v)` (rules R72, R76, R79, R93): work RAM is written, a write to `$8000-$FFFF` is a register write
on variant 1 and ignored on variant 0, and an undecoded address ignores writes. -/
def Cartridge.setCpuAt (c : Cartridge) (a : Addr) (v : Byte) : Cartridge :=
  match c.region a with
  | .prg _ =>
    match c.mapper with
    | .variant0 => c
    | .serial => c.serialWrite a v
  | .wram k => { c with wram := c.wram.write k v }
  | .undecoded => c

/-- `GetPpuAt(a)` (rules R72, R77, R92). -/
def Cartridge.getPpuAt (c : Cartridge) (a : BitVec 14) : Byte := c.chr.read (c.chrOffset a)

/-- `SetPpuAt(a, v)`: writes CHR RAM, and is ignored for CHR ROM (rules R72, R77, R92). -/
def Cartridge.setPpuAt (c : Cartridge) (a : BitVec 14) (v : Byte) : Cartridge :=
  if c.chrPages = 0 then { c with chr := c.chr.write (c.chrOffset a) v } else c

end Sys2Proof.Machine
end

