-- ==== Sys2Proof/Machine/Setters.lean ====
section
/-! DEFINITION. One update per part of the state, so that a meaning names what it writes and Laws/State.lean can say
once what each update leaves alone. -/

namespace Sys2Proof.Machine

def State.setA (s : State) (v : Byte) : State := { s with a := v }
def State.setX (s : State) (v : Byte) : State := { s with x := v }
def State.setY (s : State) (v : Byte) : State := { s with y := v }
def State.setSp (s : State) (v : Byte) : State := { s with sp := v }
def State.setPc (s : State) (v : Addr) : State := { s with pc := v }
def State.setFlags (s : State) (f : Flags) : State := { s with flags := f }
def State.setRemaining (s : State) (n : Nat) : State := { s with remaining := n }
def State.setRam (s : State) (m : Memory 8) : State := { s with ram := m }
def State.setCart (s : State) (c : Cartridge) : State := { s with cart := c }
def State.setPpu (s : State) (p : Ppu) : State := { s with ppu := p }

/-- One more free value has been drawn. -/
def State.drawn (s : State) : State := { s with draws := s.draws + 1 }

end Sys2Proof.Machine
end

