-- ==== Sys2Proof/Machine/Ppu.lean ====
section
/-! DEFINITION. The picture unit as the CPU sees it: its internal bus (rules R69 to R71, R414), its eight registers
(rules R403 to R413) and their side effects. Rendering is in PpuTick.lean. -/

namespace Sys2Proof.Machine

/-- `PalIndex(a)`: the palette cell of an address in `$3F00-$3FFF`; every index that is a multiple of 4 is cell
0 (rule R71). -/
def palIndex (a : BitVec 14) : Nat :=
  let i := a.toNat % 32
  if i % 4 = 0 then 0 else i

/-- What a picture-unit address reaches (rules R69, R414). -/
inductive PpuRegion where
  | pattern
  | nametable (offset : Nat)
  | palette (cell : Nat)
  deriving DecidableEq, Repr

/-- The decode of a 14-bit picture-unit address (rules R69 to R71, R414): `$3000-$3EFF` mirrors `$2000-$2EFF`. -/
def ppuRegion (m : Mirroring) (a : BitVec 14) : PpuRegion :=
  if a.toNat < 0x2000 then .pattern
  else if a.toNat < 0x3F00 then .nametable (nametableAddress m a).toNat
  else .palette (palIndex a)

/-- `PpuRead(a)`, which has no side effect (rule R414). -/
def ppuRead (c : Cartridge) (p : Ppu) (a : BitVec 14) : Byte :=
  match ppuRegion c.mirroring a with
  | .pattern => c.getPpuAt a
  | .nametable k => p.ntRam.read k
  | .palette k => (p.pal.read k).setWidth 8

/-- `PpuWrite(a, d)` (rule R414). -/
def ppuWrite (a : BitVec 14) (d : Byte) (s : State) : State :=
  match ppuRegion s.cart.mirroring a with
  | .pattern => s.setCart (s.cart.setPpuAt a d)
  | .nametable k => s.setPpu { s.ppu with ntRam := s.ppu.ntRam.write k d }
  | .palette k => s.setPpu { s.ppu with pal := s.ppu.pal.write k (d.setWidth 6) }

/-- The low 14 bits of a VRAM address (rule R69). -/
def vramAddr (v : BitVec 15) : BitVec 14 := v.setWidth 14

/-- The VRAM increment of a Data access: 32 when `ctrl[2]`, else 1 (rules R404, R411, R412). -/
def Ppu.increment (p : Ppu) : BitVec 15 := if bit p.ctrl 2 then 32 else 1

/-- The picture unit's open-bus byte (rule R413): a free value, or the last byte written to a register. -/
def openBusByte (s : State) : Byte × State :=
  match s.params.ppuOpenBus with
  | .draw => (Config.ppuOpenBus s.draws, s.drawn)
  | .latch => (s.ppu.ioLatch, s)

/-- The Status value: VBlank, sprite-zero hit, sprite overflow, and five open-bus bits (rule R406). -/
def Ppu.status (p : Ppu) (openBus : Byte) : Byte :=
  BitVec.ofBool p.vblank ++ BitVec.ofBool p.sprite0Hit ++ BitVec.ofBool p.spriteOverflow ++
    (openBus.extractLsb' 0 5 : BitVec 5)

/-- What a Status read leaves: VBlank and the write toggle cleared, and VBlank suppressed for this frame when the
next tick is 82182 (rules R406, R418). -/
def Ppu.afterStatusRead (p : Ppu) : Ppu :=
  { p with vblank := false, w := false, suppress := p.suppress || decide (p.tick = 82182) }

/-- A read of register 2, Status (rule R406). -/
def readStatus (s : State) : Byte × State :=
  let r := openBusByte s
  (s.ppu.status r.1, r.2.setPpu s.ppu.afterStatusRead)

/-- A read of register 7, Data (rule R411): below the palette the buffered byte; in the palette the cell itself
under two open-bus bits, while the buffer takes the nametable byte underneath. -/
def readData (s : State) : Byte × State :=
  let p := s.ppu
  let a := vramAddr p.v
  let next := p.v + p.increment
  if a.toNat < 0x3F00 then
    (p.readBuffer, s.setPpu { p with readBuffer := ppuRead s.cart p a, v := next })
  else
    let r := openBusByte s
    let value : Byte := (r.1.extractLsb' 6 2 : BitVec 2) ++ (ppuRead s.cart p a).extractLsb' 0 6
    (value, r.2.setPpu { p with readBuffer := ppuRead s.cart p (a - 0x1000), v := next })

/-- A CPU read of picture-unit register `r` (rule R403). -/
def readPpuReg (r : BitVec 3) (s : State) : Byte × State :=
  match r.toNat with
  | 2 => readStatus s
  | 4 => (s.ppu.oam.read s.ppu.oamAddr.toNat, s)
  | 7 => readData s
  | _ => openBusByte s

/-- A write of register 0, Control (rule R404): `t[11:10]` takes the base nametable. -/
def Ppu.writeControl (p : Ppu) (d : Byte) : Ppu :=
  { p with ctrl := d, t := (p.t.extractLsb' 12 3 : BitVec 3) ++ (d.extractLsb' 0 2 : BitVec 2) ++ p.t.extractLsb' 0 10 }

/-- A write of register 4, OAM data (rule R408). -/
def Ppu.writeOamData (p : Ppu) (d : Byte) : Ppu :=
  { p with oam := p.oam.write p.oamAddr.toNat d, oamAddr := p.oamAddr + 1 }

/-- A write of register 5, Scroll (rule R409). -/
def Ppu.writeScroll (p : Ppu) (d : Byte) : Ppu :=
  if p.w then
    { p with
      t := (d.extractLsb' 0 3 : BitVec 3) ++ (p.t.extractLsb' 10 2 : BitVec 2) ++ (d.extractLsb' 3 5 : BitVec 5) ++
        p.t.extractLsb' 0 5
      w := false }
  else
    { p with t := (p.t.extractLsb' 5 10 : BitVec 10) ++ d.extractLsb' 3 5, x := d.extractLsb' 0 3, w := true }

/-- A write of register 6, Address (rule R410): high byte first, the second write loads `v`. -/
def Ppu.writeAddress (p : Ppu) (d : Byte) : Ppu :=
  if p.w then
    let t : BitVec 15 := (p.t.extractLsb' 8 7 : BitVec 7) ++ d
    { p with t := t, v := t, w := false }
  else
    { p with t := (0 : BitVec 1) ++ (d.extractLsb' 0 6 : BitVec 6) ++ p.t.extractLsb' 0 8, w := true }

/-- A write of register 7, Data (rule R412). -/
def writeData (d : Byte) (s : State) : State :=
  let s1 := ppuWrite (vramAddr s.ppu.v) d s
  s1.setPpu { s1.ppu with v := s.ppu.v + s.ppu.increment }

/-- A CPU write of `d` to picture-unit register `r` (rule R403); every write also sets `io_latch`. -/
def writePpuReg (r : BitVec 3) (d : Byte) (s : State) : State :=
  let s1 := s.setPpu { s.ppu with ioLatch := d }
  let p := s1.ppu
  match r.toNat with
  | 0 => s1.setPpu (p.writeControl d)
  | 1 => s1.setPpu { p with mask := d }
  | 3 => s1.setPpu { p with oamAddr := d }
  | 4 => s1.setPpu (p.writeOamData d)
  | 5 => s1.setPpu (p.writeScroll d)
  | 6 => s1.setPpu (p.writeAddress d)
  | 7 => writeData d s1
  | _ => s1

end Sys2Proof.Machine
end

