-- ==== Sys2Proof/Machine/Ops.lean ====
section
/-! DEFINITION. The operations every instruction is made of: the CPU bus with its decoder and side effects (rules R54
to R65), OAM DMA (rules R87, R88), the stack (rule R62), the cost of an instruction (rule R504), interrupt
entry and return (rules R307, R308, R311), the Reset sequence (rule R501), and the two inputs the environment
sets between steps (rules R303, R304). -/

namespace Sys2Proof.Machine

/-- What a CPU address reaches (rule R54). -/
inductive CpuRegion where
  /-- Internal RAM, by its offset `a & $07FF` (rule R55). -/
  | ram (offset : Nat)
  /-- A picture-unit register, `a & 7` (rule R56). -/
  | ppuReg (r : BitVec 3)
  /-- The audio and controller registers, an external device (rule R57). -/
  | external
  /-- `$4014`: OAM DMA on write, the external device on read (rule R58). -/
  | oamDma
  /-- `$4018-$401F` (rule R59). -/
  | undecoded
  /-- `$4020-$FFFF`, delegated to the mapper (rule R60). -/
  | cartridge
  deriving DecidableEq, Repr

/-- The CPU address decoder: total and fixed (rule R54). -/
def cpuRegion (a : Addr) : CpuRegion :=
  let n := a.toNat
  if n < 0x2000 then .ram (n % 0x800)
  else if n < 0x4000 then .ppuReg (a.extractLsb' 0 3)
  else if n = 0x4014 then .oamDma
  else if n < 0x4018 then .external
  else if n < 0x4020 then .undecoded
  else .cartridge

/-- An `EXTERNAL_IO` read: one free byte (rule R57). -/
def readExternal (s : State) : Byte × State := (Config.externalIo s.draws, s.drawn)

/-- `MemRead(addr, 1)`: a byte read through the decoder, with the read side effects of rule R64. -/
def memRead (a : Addr) (s : State) : Byte × State :=
  match cpuRegion a with
  | .ram k => (s.ram.read k, s)
  | .ppuReg r => readPpuReg r s
  | .external | .oamDma => readExternal s
  | .undecoded => (Config.cpuOpenBus, s)
  | .cartridge => (s.cart.getCpuAt a, s)

/-- The side-effect-free read of rule R318: the byte a read would give now, with no change of state. -/
def peek (a : Addr) (s : State) : Byte := (memRead a s).1

/-- One byte of the OAM-DMA copy: read `{v, i}`, write `OAM[(OAMADDR + i) & $FF]` (rule R87). -/
def dmaByte (v : Byte) (s : State) (i : Nat) : State :=
  let r := memRead (word16 v (BitVec.ofNat 8 i)) s
  let p := r.2.ppu
  r.2.setPpu { p with oam := p.oam.write (p.oamAddr + BitVec.ofNat 8 i).toNat r.1 }

/-- OAM DMA: the whole page copied at once, in increasing order (rule R87). -/
def oamDma (v : Byte) (s : State) : State := (List.range 256).foldl (dmaByte v) s

/-- `MemWrite(addr, 1, v)`: a byte write through the decoder, with the write side effects of rule R65. A write to the
external device changes no state of the machine (rule R57). -/
def memWrite (a : Addr) (v : Byte) (s : State) : State :=
  match cpuRegion a with
  | .ram k => s.setRam (s.ram.write k v)
  | .ppuReg r => writePpuReg r v s
  | .oamDma => oamDma v s
  | .external | .undecoded => s
  | .cartridge => s.setCart (s.cart.setCpuAt a v)

/-- `Read16(addr)`: low byte first, the second address wrapping past `$FFFF` (rule R53). -/
def read16 (a : Addr) (s : State) : Addr × State :=
  let lo := memRead a s
  let hi := memRead (a + 1) lo.2
  (word16 hi.1 lo.1, hi.2)

/-- The stack address of a stack-pointer value, `$0100 | SP` (rules R21, R62). -/
def stackAddr (sp : Byte) : Addr := word16 1 sp

/-- `Push(v)` (rule R62). -/
def push (v : Byte) (s : State) : State :=
  let s1 := memWrite (stackAddr s.sp) v s
  s1.setSp (s.sp - 1)

/-- `Pull()` (rule R62). -/
def pull (s : State) : Byte × State :=
  let s1 := s.setSp (s.sp + 1)
  memRead (stackAddr s1.sp) s1

/-- A 16-bit value pushed high byte first (rule R62). -/
def push16 (w : Addr) (s : State) : State := push (loByte w) (push (hiByte w) s)

/-- A 16-bit value pulled low byte first (rule R62). -/
def pull16 (s : State) : Addr × State :=
  let lo := pull s
  let hi := pull lo.2
  (word16 hi.1 lo.1, hi.2)

/-- `PC <- PC + length`, before the semantics run (rule R22). -/
def State.advance (s : State) (op : Byte) : State := s.setPc (s.pc + BitVec.ofNat 16 (opcodeRow op).length)

/-- Parts (a) and (b) of an instruction's cost (rule R504): the base count of its row, 1 for a JAM, and 1 more where
the row is marked and the address computation crossed a page (rule R134). -/
def baseCost (op : Byte) (crossed : Bool) : Nat :=
  (opcodeRow op).cycles.getD 1 + (if (opcodeRow op).pageCross && crossed then 1 else 0)

/-- Part (d): the DMA stall of an instruction that wrote `$4014`, 513 or 514 by the parity of the cycle count at its
start plus its cost without the stall (rules R88, R504). -/
def dmaStall (start cost : Nat) (written : Addr) : Nat :=
  if cpuRegion written = .oamDma then (if (start + cost) % 2 = 0 then 513 else 514) else 0

/-- `SetNZ(v)` on the state's flags (rule R8). -/
def State.setNZ (s : State) (v : Byte) : State := s.setFlags (s.flags.setNZ v)

/-- The vectors (rules R61, R301). -/
def nmiVector : Addr := 0xFFFA
def resetVector : Addr := 0xFFFC
def irqVector : Addr := 0xFFFE

/-- Taking an interrupt (rules R213, R307, R308): push `ret` high and low and the status byte with Break bit `b`, set
I, and load PC from the vector. BRK, NMI and IRQ all enter here; D and the other flags are unchanged (rule R313). -/
def enterInterrupt (ret : Addr) (b : Bool) (vector : Addr) (s : State) : State :=
  let s1 := push16 ret s
  let s2 := push (s1.flags.pack b) s1
  let s3 := s2.setFlags { s2.flags with i := true }
  let target := read16 vector s3
  target.2.setPc target.1

/-- Returning from an interrupt (rules R214, R311): pull the status byte, then PC low and high, with no +1. -/
def returnFromInterrupt (s : State) : State :=
  let p := pull s
  let s1 := p.2.setFlags (Flags.unpack p.1)
  let target := pull16 s1
  target.2.setPc target.1

/-- `InterruptEntry(vector)` of NMI and IRQ: saves PC itself, B = 0, cost 7 (rule R307). -/
def interruptEntry (vector : Addr) (s : State) : State :=
  (enterInterrupt s.pc false vector s).setRemaining 7

/-- NMI entry, which also clears the latch (rule R307). -/
def nmiEntry (s : State) : State := interruptEntry nmiVector { s with nmiPending := false }

/-- IRQ entry; the line is not acknowledged (rules R303, R307). -/
def irqEntry (s : State) : State := interruptEntry irqVector s

/-- The Reset sequence (rule R501): no memory is written, and nothing else changes. -/
def resetSequence (s : State) : State :=
  let s1 := (s.setSp (s.sp - 3)).setFlags { s.flags with i := true }
  let target := read16 resetVector s1
  { target.2 with
    pc := target.1, halted := false, nmiPending := false, resetPending := false, remaining := 7 }

/-- A halted boundary: nothing is serviced and one tick passes (rule R513). -/
def haltedBoundary (s : State) : State := s.setRemaining 1

/-- The host's Reset request, an input between coordinator steps (rule R304). -/
def State.requestReset (s : State) : State := { s with resetPending := true }

/-- The level of the IRQ line for the ticks to come, an input between coordinator steps (rule R303). -/
def State.setIrqLine (s : State) (level : Bool) : State := { s with irqLine := level }

end Sys2Proof.Machine
end

