-- ==== Sys2Proof/Machine/Introspect.lean ====
section
/-! DEFINITION. The introspection interface (rules R27, R318): it reads, and changes no state. -/

namespace Sys2Proof.Machine

/-- "current PC/SP/A/X/Y/status-byte, cumulative cycle count" (rules R27, R318). -/
structure Introspection where
  pc     : Addr
  sp     : Byte
  a      : Byte
  x      : Byte
  y      : Byte
  status : Byte
  cycles : Nat
  deriving DecidableEq, Repr

/-- What the introspection interface shows; the status byte is `Pack(0)` (rule R27). -/
def introspect (s : State) : Introspection := ⟨s.pc, s.sp, s.a, s.x, s.y, s.flags.pack false, s.cycles⟩

/-- `n` bytes from `addr` up, peeked. Rule R318 lets a peek change no state and does not say how several peeks of one
Decode draw; as rule R57 and decision D18 give one draw for each read, each free-valued byte here takes the draw after
the earlier ones', counted from the machine's counter, which stays as it is: DESIGN CHOICE, assumption 18. -/
def peekBytes : Nat → Addr → State → List Byte
  | 0, _, _ => []
  | n + 1, addr, s =>
    let b := memRead addr s
    b.1 :: peekBytes n (addr + 1) { s with draws := b.2.draws }

/-- `Decode(addr)`, "a decode-without-execute function": the table entry of the byte at `addr` and its operand
bytes, peeked (rule R318; assumption 18). -/
def decodeAt (addr : Addr) (s : State) : Row × List Byte :=
  let row := opcodeRow (peek addr s)
  (row, (peekBytes row.length addr s).drop 1)

end Sys2Proof.Machine
end

