-- ==== Sys2Proof/Machine/Loader.lean ====
section
/-! DEFINITION. The load-time checks of a mapper constructor (rule R81): a cartridge image, as bytes, gives a
cartridge or an error, before the machine exists. -/

namespace Sys2Proof.Machine

/-- The two kinds of recoverable load error (rule R81), each with its reason. -/
inductive LoadError where
  | invalidFormat (reason : String)
  | unsupportedFormat (reason : String)
  deriving DecidableEq, Repr

/-- What loading an image gives. -/
inductive Loaded where
  | cartridge (c : Cartridge)
  | error (e : LoadError)
  deriving DecidableEq, Repr

/-- The header's four-byte tag, `"NES" $1A` (rule R81). -/
def headerTag : List Byte := [0x4E, 0x45, 0x53, 0x1A]

/-- The mapper number `{byte7[7:4], byte6[7:4]}` (rule R81, 90_conflicts.md C5). -/
def mapperNumber (b6 b7 : Byte) : Nat := (b7.extractLsb' 4 4 ++ b6.extractLsb' 4 4 : BitVec 8).toNat

/-- The header flags that make an image unsupported (rule R81); which one is reported where several are set is a DESIGN
CHOICE, assumption 16. -/
def unsupportedFlag (b6 b7 : Byte) : Option String :=
  if bit b6 2 then some "trainer present"
  else if bit b6 1 then some "battery-backed RAM"
  else if bit b6 3 then some "four-screen VRAM"
  else if bit b7 0 then some "VS flag"
  else if bit b7 1 then some "PlayChoice flag"
  else if b7.extractLsb' 2 2 = (0b10 : BitVec 2) then some "NES 2.0 header"
  else none

/-- Whether the page counts fit the variant: 1 or 2 PRG pages and at most 1 CHR page for variant 0 (rules R75,
R77); for variant 1 what four PRG bank bits and five CHR bank bits reach (rules R91, R92; assumption 16). -/
def pageCountsFit (mapper p c : Nat) : Bool :=
  if mapper = 0 then decide (p ≤ 2) && decide (c ≤ 1) else decide (p ≤ 16) && decide (c ≤ 16)

/-- The cartridge of an accepted image: its PRG and CHR pages, CHR RAM and work RAM as `RAM_INIT` gives them. -/
def buildCartridge (mapper p c : Nat) (b6 : Byte) (body : List Byte) (wram0 : Bool) (chrRam wram : Memory 8) :
    Cartridge where
  mapper := if mapper = 0 then .variant0 else .serial
  prgPages := p
  chrPages := c
  verticalFlag := bit b6 0
  mapper0Wram := wram0
  prg := Memory.ofList (body.take (16384 * p))
  chr := if c = 0 then chrRam else Memory.ofList (body.drop (16384 * p))
  wram := wram
  shift := 0
  shiftCount := 0
  control := 0x0C
  chrBank0 := 0
  chrBank1 := 0
  prgBank := 0

/-- The checks of rule R81 on a header whose 16 bytes are present, in the order: tag, unsupported
flags, zero bytes, mapper number, page counts, size. Rule R81 gives no order: DESIGN CHOICE, assumption 16. -/
def loadWithHeader (tag : List Byte) (p c b6 b7 : Byte) (zeros body : List Byte) (wram0 : Bool)
    (chrRam wram : Memory 8) : Loaded :=
  if tag ≠ headerTag then .error (.invalidFormat "missing tag")
  else
    match unsupportedFlag b6 b7 with
    | some reason => .error (.unsupportedFormat reason)
    | none =>
      let mapper := mapperNumber b6 b7
      if ∃ z ∈ zeros, z ≠ 0 then .error (.invalidFormat "required-zero field nonzero")
      else if 2 ≤ mapper then .error (.unsupportedFormat "unrecognized mapper number")
      else if p = 0 then .error (.invalidFormat "inconsistent page counts")
      else if pageCountsFit mapper p.toNat c.toNat = false then
        .error (.unsupportedFormat "oversized bank counts")
      else if body.length < 16384 * p.toNat + 8192 * c.toNat then .error (.invalidFormat "short read")
      else if body.length ≠ 16384 * p.toNat + 8192 * c.toNat then
        .error (.invalidFormat "inconsistent page counts")
      else .cartridge (buildCartridge mapper p.toNat c.toNat b6 body wram0 chrRam wram)

/-- Mapper construction from a cartridge image (rule R81): 4-byte tag, PRG page count, CHR page count, two flag
bytes, eight zero bytes, then the pages. `wram0` is `MAPPER0_WRAM`; `chrRam` and `wram` are `RAM_INIT`. Rule R81 does
not say which bytes the "required-zero field" is; that it is all of bytes 8 to 15 is a DESIGN CHOICE, assumption 19. Nor
does it say which error an image of fewer than 16 bytes reports when its tag or flags are wrong too; that it is always
"short read", before the tag is looked at, is a DESIGN CHOICE, assumption 16. -/
def loadCartridge (image : List Byte) (wram0 : Bool) (chrRam wram : Memory 8) : Loaded :=
  match image with
  | t0 :: t1 :: t2 :: t3 :: p :: c :: b6 :: b7 :: z0 :: z1 :: z2 :: z3 :: z4 :: z5 :: z6 :: z7 :: body =>
    loadWithHeader [t0, t1, t2, t3] p c b6 b7 [z0, z1, z2, z3, z4, z5, z6, z7] body wram0 chrRam wram
  | _ => .error (.invalidFormat "short read")

end Sys2Proof.Machine
end

