-- ==== Sys2Proof/Machine/Operands.lean ====
section
/-! DEFINITION. The 13 addressing modes (rules R120 to R133) and the operand access of each instruction class (rules
R135, R136, R190): every meaning is one of the `…Instr` forms below over an effect of its own. -/

namespace Sys2Proof.Machine

/-- A resolved address, `(effective-address, page-crossed)` (rule R34), with the state its pointer reads leave. -/
structure Resolved where
  ea      : Addr
  crossed : Bool
  state   : State
  deriving DecidableEq, Repr

/-- `base + index` modulo 2^16, crossed when the page changes (rules R129, R130, R133). -/
def indexed (base : Addr) (index : Byte) (s : State) : Resolved :=
  let ea := base + zext16 index
  ⟨ea, decide (hiByte ea ≠ hiByte base), s⟩

/-- A zero-page pointer: low byte at `p`, high byte at `p + 1` modulo 256 (rules R132, R133). -/
def zeroPagePointer (p : Byte) (s : State) : Addr × State :=
  let lo := memRead (zext16 p) s
  let hi := memRead (zext16 (p + 1)) lo.2
  (word16 hi.1 lo.1, hi.2)

/-- The effective address of a memory operand (rules R124 to R126, R128 to R130, R132, R133). -/
def resolve (o : MemOperand) (s : State) : Resolved :=
  match o with
  | .zeroPage a => ⟨zext16 a, false, s⟩
  | .zeroPageX a => ⟨zext16 (a + s.x), false, s⟩
  | .zeroPageY a => ⟨zext16 (a + s.y), false, s⟩
  | .absolute w => ⟨w, false, s⟩
  | .absoluteX w => indexed w s.x s
  | .absoluteY w => indexed w s.y s
  | .indexedIndirect a =>
    let p := zeroPagePointer (a + s.x) s
    ⟨p.1, false, p.2⟩
  | .indirectIndexed a =>
    let p := zeroPagePointer a s
    indexed p.1 p.2.y p.2

/-- The branch target: the address after the branch plus the signed displacement (rule R127). -/
def relativeTarget (pcNext : Addr) (d : Byte) : Addr := pcNext + sext16 d

/-- The target of `JMP (ind)`: the pointer's second byte wraps within its page (rule R131). -/
def indirectTarget (w : Addr) (s : State) : Addr × State :=
  let lo := memRead w s
  let hi := memRead (word16 (hiByte w) (loByte w + 1)) lo.2
  (word16 hi.1 lo.1, hi.2)

/-- What the resolver of rule R120 produces for an operand of any of the 13 modes: the effective address where the
mode has one, whether a page was crossed, and the state after its reads. -/
structure Resolution where
  ea      : Option Addr
  crossed : Bool
  state   : State
  deriving DecidableEq, Repr

/-- The addressing-mode resolver (rule R120); `s` has PC at the next instruction (rule R22). -/
def Operand.resolve (o : Operand) (s : State) : Resolution :=
  match o with
  | .implied | .accumulator | .immediate _ => ⟨none, false, s⟩
  | .relative d => ⟨some (relativeTarget s.pc d), false, s⟩
  | .indirect w => ⟨some (indirectTarget w s).1, false, (indirectTarget w s).2⟩
  | .memory m => ⟨some (Machine.resolve m s).ea, (Machine.resolve m s).crossed, (Machine.resolve m s).state⟩

/-- An operand value that has been read, whether its address crossed a page, and the state after the reads. -/
structure OperandValue where
  value   : Byte
  crossed : Bool
  state   : State
  deriving DecidableEq, Repr

/-- The operand of a read instruction: the immediate byte, or one byte at the effective address (rule R135). -/
def load (src : Source) (s : State) : OperandValue :=
  match src with
  | .immediate m => ⟨m, false, s⟩
  | .memory o =>
    let r := resolve o s
    let b := memRead r.ea r.state
    ⟨b.1, r.crossed, b.2⟩

/-- An implied instruction: PC advanced, then its effect (rules R22, R121). -/
def impliedInstr (op : Byte) (effect : State → State) (s : State) : Result :=
  .next ((effect (s.advance op)).setRemaining (baseCost op false))

/-- A read instruction (rule R135): PC advanced, the operand read once, then its effect. -/
def readInstr (op : Byte) (src : Source) (effect : Byte → State → State) (s : State) : Result :=
  let l := load src (s.advance op)
  .next ((effect l.value l.state).setRemaining (baseCost op l.crossed))

/-- A write instruction (rule R135): PC advanced, the address resolved and not read, one byte written. -/
def writeInstr (op : Byte) (o : MemOperand) (value : State → Byte) (s : State) : Result :=
  let r := resolve o (s.advance op)
  let cost := baseCost op r.crossed
  .next ((memWrite r.ea (value r.state) r.state).setRemaining (cost + dmaStall s.cycles cost r.ea))

/-- A read-modify-write instruction (rules R135, R190): `Operand()`, then `modify` gives the result and the flags,
`WriteBack(result)` at the same place, and `effect` works from the result. -/
def rmwInstr (op : Byte) (target : Target) (modify : Byte → Flags → Byte × Flags) (effect : Byte → State → State)
    (s : State) : Result :=
  let s0 := s.advance op
  match target with
  | .accumulator =>
    let m := modify s0.a s0.flags
    .next ((effect m.1 ((s0.setFlags m.2).setA m.1)).setRemaining (baseCost op false))
  | .memory o =>
    let r := resolve o s0
    let b := memRead r.ea r.state
    let m := modify b.1 b.2.flags
    let cost := baseCost op r.crossed
    .next ((effect m.1 ((memWrite r.ea m.1 b.2).setFlags m.2)).setRemaining (cost + dmaStall s.cycles cost r.ea))

/-- `Branch(cond)` (rule R200): the target when the condition holds, with part (c) of the cost, whose page check
compares the target with `PC_next` (rule R505). -/
def branchInstr (op : Byte) (cond : Flags → Bool) (d : Byte) (s : State) : Result :=
  let s0 := s.advance op
  let target := relativeTarget s0.pc d
  if cond s0.flags then
    .next ((s0.setPc target).setRemaining (baseCost op false + (if hiByte target = hiByte s0.pc then 1 else 2)))
  else
    .next (s0.setRemaining (baseCost op false))

end Sys2Proof.Machine
end

