-- ==== Sys2Proof/Machine/Arith.lean ====
section
/-! DEFINITION. Arithmetic, logic, compare, increment and decrement (rules R160 to R177). -/

namespace Sys2Proof.Machine

/-- `A <- AddWithCarry(A, M, C)` (rule R163). -/
def adcEffect (m : Byte) (s : State) : State :=
  let r := addWithCarry s.a m s.flags
  (s.setA r.1).setFlags r.2

/-- `A <- AddWithCarry(A, ~M, C)` (rule R164). -/
def sbcEffect (m : Byte) (s : State) : State := adcEffect (~~~m) s

/-- `A <- A & M; SetNZ(A)` (rule R165). -/
def andEffect (m : Byte) (s : State) : State := (s.setA (s.a &&& m)).setNZ (s.a &&& m)

/-- `A <- A | M; SetNZ(A)` (rule R166). -/
def oraEffect (m : Byte) (s : State) : State := (s.setA (s.a ||| m)).setNZ (s.a ||| m)

/-- `A <- A xor M; SetNZ(A)` (rule R167). -/
def eorEffect (m : Byte) (s : State) : State := (s.setA (s.a ^^^ m)).setNZ (s.a ^^^ m)

/-- `Z <- ((A & M) == 0); N <- M[7]; V <- M[6]` (rule R168). -/
def bitEffect (m : Byte) (s : State) : State :=
  s.setFlags { s.flags with z := decide (s.a &&& m = 0), n := bit m 7, v := bit m 6 }

/-- `Compare(A, M)` (rule R169). -/
def cmpEffect (m : Byte) (s : State) : State := s.setFlags (compareFlags s.a m s.flags)

/-- `Compare(X, M)` (rule R170). -/
def cpxEffect (m : Byte) (s : State) : State := s.setFlags (compareFlags s.x m s.flags)

/-- `Compare(Y, M)` (rule R171). -/
def cpyEffect (m : Byte) (s : State) : State := s.setFlags (compareFlags s.y m s.flags)

/-- `SetNZ(r)` of a read-modify-write result (rules R172, R173, R191 to R194). -/
def nzEffect (r : Byte) (s : State) : State := s.setNZ r

/-- `X <- X + 1; SetNZ(X)` (rule R174). -/
def inxEffect (s : State) : State := (s.setX (s.x + 1)).setNZ (s.x + 1)

/-- `Y <- Y + 1; SetNZ(Y)` (rule R175). -/
def inyEffect (s : State) : State := (s.setY (s.y + 1)).setNZ (s.y + 1)

/-- `X <- X - 1; SetNZ(X)` (rule R176). -/
def dexEffect (s : State) : State := (s.setX (s.x - 1)).setNZ (s.x - 1)

/-- `Y <- Y - 1; SetNZ(Y)` (rule R177). -/
def deyEffect (s : State) : State := (s.setY (s.y - 1)).setNZ (s.y - 1)

/-! ADC (rule R163) -/

/-- `$61` ADC (a,X) (rule R163). -/
def execAdcIndX (a : Byte) (s : State) : Result :=
  readInstr 0x61 (.memory (.indexedIndirect a)) adcEffect s

/-- `$65` ADC a (rule R163). -/
def execAdcZp (a : Byte) (s : State) : Result :=
  readInstr 0x65 (.memory (.zeroPage a)) adcEffect s

/-- `$69` ADC #m (rule R163). -/
def execAdcImm (m : Byte) (s : State) : Result :=
  readInstr 0x69 (.immediate m) adcEffect s

/-- `$6D` ADC w (rule R163). -/
def execAdcAbs (w : Addr) (s : State) : Result :=
  readInstr 0x6D (.memory (.absolute w)) adcEffect s

/-- `$71` ADC (a),Y (rule R163). -/
def execAdcIndY (a : Byte) (s : State) : Result :=
  readInstr 0x71 (.memory (.indirectIndexed a)) adcEffect s

/-- `$75` ADC a,X (rule R163). -/
def execAdcZpX (a : Byte) (s : State) : Result :=
  readInstr 0x75 (.memory (.zeroPageX a)) adcEffect s

/-- `$79` ADC w,Y (rule R163). -/
def execAdcAbsY (w : Addr) (s : State) : Result :=
  readInstr 0x79 (.memory (.absoluteY w)) adcEffect s

/-- `$7D` ADC w,X (rule R163). -/
def execAdcAbsX (w : Addr) (s : State) : Result :=
  readInstr 0x7D (.memory (.absoluteX w)) adcEffect s

/-! SBC (rule R164) -/

/-- `$E1` SBC (a,X) (rule R164). -/
def execSbcIndX (a : Byte) (s : State) : Result :=
  readInstr 0xE1 (.memory (.indexedIndirect a)) sbcEffect s

/-- `$E5` SBC a (rule R164). -/
def execSbcZp (a : Byte) (s : State) : Result :=
  readInstr 0xE5 (.memory (.zeroPage a)) sbcEffect s

/-- `$E9` SBC #m (rule R164). -/
def execSbcImm (m : Byte) (s : State) : Result :=
  readInstr 0xE9 (.immediate m) sbcEffect s

/-- `$ED` SBC w (rule R164). -/
def execSbcAbs (w : Addr) (s : State) : Result :=
  readInstr 0xED (.memory (.absolute w)) sbcEffect s

/-- `$F1` SBC (a),Y (rule R164). -/
def execSbcIndY (a : Byte) (s : State) : Result :=
  readInstr 0xF1 (.memory (.indirectIndexed a)) sbcEffect s

/-- `$F5` SBC a,X (rule R164). -/
def execSbcZpX (a : Byte) (s : State) : Result :=
  readInstr 0xF5 (.memory (.zeroPageX a)) sbcEffect s

/-- `$F9` SBC w,Y (rule R164). -/
def execSbcAbsY (w : Addr) (s : State) : Result :=
  readInstr 0xF9 (.memory (.absoluteY w)) sbcEffect s

/-- `$FD` SBC w,X (rule R164). -/
def execSbcAbsX (w : Addr) (s : State) : Result :=
  readInstr 0xFD (.memory (.absoluteX w)) sbcEffect s

/-! AND (rule R165) -/

/-- `$21` AND (a,X) (rule R165). -/
def execAndIndX (a : Byte) (s : State) : Result :=
  readInstr 0x21 (.memory (.indexedIndirect a)) andEffect s

/-- `$25` AND a (rule R165). -/
def execAndZp (a : Byte) (s : State) : Result :=
  readInstr 0x25 (.memory (.zeroPage a)) andEffect s

/-- `$29` AND #m (rule R165). -/
def execAndImm (m : Byte) (s : State) : Result :=
  readInstr 0x29 (.immediate m) andEffect s

/-- `$2D` AND w (rule R165). -/
def execAndAbs (w : Addr) (s : State) : Result :=
  readInstr 0x2D (.memory (.absolute w)) andEffect s

/-- `$31` AND (a),Y (rule R165). -/
def execAndIndY (a : Byte) (s : State) : Result :=
  readInstr 0x31 (.memory (.indirectIndexed a)) andEffect s

/-- `$35` AND a,X (rule R165). -/
def execAndZpX (a : Byte) (s : State) : Result :=
  readInstr 0x35 (.memory (.zeroPageX a)) andEffect s

/-- `$39` AND w,Y (rule R165). -/
def execAndAbsY (w : Addr) (s : State) : Result :=
  readInstr 0x39 (.memory (.absoluteY w)) andEffect s

/-- `$3D` AND w,X (rule R165). -/
def execAndAbsX (w : Addr) (s : State) : Result :=
  readInstr 0x3D (.memory (.absoluteX w)) andEffect s

/-! ORA (rule R166) -/

/-- `$01` ORA (a,X) (rule R166). -/
def execOraIndX (a : Byte) (s : State) : Result :=
  readInstr 0x01 (.memory (.indexedIndirect a)) oraEffect s

/-- `$05` ORA a (rule R166). -/
def execOraZp (a : Byte) (s : State) : Result :=
  readInstr 0x05 (.memory (.zeroPage a)) oraEffect s

/-- `$09` ORA #m (rule R166). -/
def execOraImm (m : Byte) (s : State) : Result :=
  readInstr 0x09 (.immediate m) oraEffect s

/-- `$0D` ORA w (rule R166). -/
def execOraAbs (w : Addr) (s : State) : Result :=
  readInstr 0x0D (.memory (.absolute w)) oraEffect s

/-- `$11` ORA (a),Y (rule R166). -/
def execOraIndY (a : Byte) (s : State) : Result :=
  readInstr 0x11 (.memory (.indirectIndexed a)) oraEffect s

/-- `$15` ORA a,X (rule R166). -/
def execOraZpX (a : Byte) (s : State) : Result :=
  readInstr 0x15 (.memory (.zeroPageX a)) oraEffect s

/-- `$19` ORA w,Y (rule R166). -/
def execOraAbsY (w : Addr) (s : State) : Result :=
  readInstr 0x19 (.memory (.absoluteY w)) oraEffect s

/-- `$1D` ORA w,X (rule R166). -/
def execOraAbsX (w : Addr) (s : State) : Result :=
  readInstr 0x1D (.memory (.absoluteX w)) oraEffect s

/-! EOR (rule R167) -/

/-- `$41` EOR (a,X) (rule R167). -/
def execEorIndX (a : Byte) (s : State) : Result :=
  readInstr 0x41 (.memory (.indexedIndirect a)) eorEffect s

/-- `$45` EOR a (rule R167). -/
def execEorZp (a : Byte) (s : State) : Result :=
  readInstr 0x45 (.memory (.zeroPage a)) eorEffect s

/-- `$49` EOR #m (rule R167). -/
def execEorImm (m : Byte) (s : State) : Result :=
  readInstr 0x49 (.immediate m) eorEffect s

/-- `$4D` EOR w (rule R167). -/
def execEorAbs (w : Addr) (s : State) : Result :=
  readInstr 0x4D (.memory (.absolute w)) eorEffect s

/-- `$51` EOR (a),Y (rule R167). -/
def execEorIndY (a : Byte) (s : State) : Result :=
  readInstr 0x51 (.memory (.indirectIndexed a)) eorEffect s

/-- `$55` EOR a,X (rule R167). -/
def execEorZpX (a : Byte) (s : State) : Result :=
  readInstr 0x55 (.memory (.zeroPageX a)) eorEffect s

/-- `$59` EOR w,Y (rule R167). -/
def execEorAbsY (w : Addr) (s : State) : Result :=
  readInstr 0x59 (.memory (.absoluteY w)) eorEffect s

/-- `$5D` EOR w,X (rule R167). -/
def execEorAbsX (w : Addr) (s : State) : Result :=
  readInstr 0x5D (.memory (.absoluteX w)) eorEffect s

/-! BIT (rule R168) -/

/-- `$24` BIT a (rule R168). -/
def execBitZp (a : Byte) (s : State) : Result :=
  readInstr 0x24 (.memory (.zeroPage a)) bitEffect s

/-- `$2C` BIT w (rule R168). -/
def execBitAbs (w : Addr) (s : State) : Result :=
  readInstr 0x2C (.memory (.absolute w)) bitEffect s

/-! CMP (rule R169) -/

/-- `$C1` CMP (a,X) (rule R169). -/
def execCmpIndX (a : Byte) (s : State) : Result :=
  readInstr 0xC1 (.memory (.indexedIndirect a)) cmpEffect s

/-- `$C5` CMP a (rule R169). -/
def execCmpZp (a : Byte) (s : State) : Result :=
  readInstr 0xC5 (.memory (.zeroPage a)) cmpEffect s

/-- `$C9` CMP #m (rule R169). -/
def execCmpImm (m : Byte) (s : State) : Result :=
  readInstr 0xC9 (.immediate m) cmpEffect s

/-- `$CD` CMP w (rule R169). -/
def execCmpAbs (w : Addr) (s : State) : Result :=
  readInstr 0xCD (.memory (.absolute w)) cmpEffect s

/-- `$D1` CMP (a),Y (rule R169). -/
def execCmpIndY (a : Byte) (s : State) : Result :=
  readInstr 0xD1 (.memory (.indirectIndexed a)) cmpEffect s

/-- `$D5` CMP a,X (rule R169). -/
def execCmpZpX (a : Byte) (s : State) : Result :=
  readInstr 0xD5 (.memory (.zeroPageX a)) cmpEffect s

/-- `$D9` CMP w,Y (rule R169). -/
def execCmpAbsY (w : Addr) (s : State) : Result :=
  readInstr 0xD9 (.memory (.absoluteY w)) cmpEffect s

/-- `$DD` CMP w,X (rule R169). -/
def execCmpAbsX (w : Addr) (s : State) : Result :=
  readInstr 0xDD (.memory (.absoluteX w)) cmpEffect s

/-! CPX (rule R170) -/

/-- `$E0` CPX #m (rule R170). -/
def execCpxImm (m : Byte) (s : State) : Result :=
  readInstr 0xE0 (.immediate m) cpxEffect s

/-- `$E4` CPX a (rule R170). -/
def execCpxZp (a : Byte) (s : State) : Result :=
  readInstr 0xE4 (.memory (.zeroPage a)) cpxEffect s

/-- `$EC` CPX w (rule R170). -/
def execCpxAbs (w : Addr) (s : State) : Result :=
  readInstr 0xEC (.memory (.absolute w)) cpxEffect s

/-! CPY (rule R171) -/

/-- `$C0` CPY #m (rule R171). -/
def execCpyImm (m : Byte) (s : State) : Result :=
  readInstr 0xC0 (.immediate m) cpyEffect s

/-- `$C4` CPY a (rule R171). -/
def execCpyZp (a : Byte) (s : State) : Result :=
  readInstr 0xC4 (.memory (.zeroPage a)) cpyEffect s

/-- `$CC` CPY w (rule R171). -/
def execCpyAbs (w : Addr) (s : State) : Result :=
  readInstr 0xCC (.memory (.absolute w)) cpyEffect s

/-! INC (rule R172) -/

/-- `$E6` INC a (rule R172). -/
def execIncZp (a : Byte) (s : State) : Result :=
  rmwInstr 0xE6 (.memory (.zeroPage a)) stepInc nzEffect s

/-- `$EE` INC w (rule R172). -/
def execIncAbs (w : Addr) (s : State) : Result :=
  rmwInstr 0xEE (.memory (.absolute w)) stepInc nzEffect s

/-- `$F6` INC a,X (rule R172). -/
def execIncZpX (a : Byte) (s : State) : Result :=
  rmwInstr 0xF6 (.memory (.zeroPageX a)) stepInc nzEffect s

/-- `$FE` INC w,X (rule R172). -/
def execIncAbsX (w : Addr) (s : State) : Result :=
  rmwInstr 0xFE (.memory (.absoluteX w)) stepInc nzEffect s

/-! DEC (rule R173) -/

/-- `$C6` DEC a (rule R173). -/
def execDecZp (a : Byte) (s : State) : Result :=
  rmwInstr 0xC6 (.memory (.zeroPage a)) stepDec nzEffect s

/-- `$CE` DEC w (rule R173). -/
def execDecAbs (w : Addr) (s : State) : Result :=
  rmwInstr 0xCE (.memory (.absolute w)) stepDec nzEffect s

/-- `$D6` DEC a,X (rule R173). -/
def execDecZpX (a : Byte) (s : State) : Result :=
  rmwInstr 0xD6 (.memory (.zeroPageX a)) stepDec nzEffect s

/-- `$DE` DEC w,X (rule R173). -/
def execDecAbsX (w : Addr) (s : State) : Result :=
  rmwInstr 0xDE (.memory (.absoluteX w)) stepDec nzEffect s

/-! INX (rule R174) -/

/-- `$E8` INX (rule R174). -/
def execInx (s : State) : Result :=
  impliedInstr 0xE8 inxEffect s

/-! INY (rule R175) -/

/-- `$C8` INY (rule R175). -/
def execIny (s : State) : Result :=
  impliedInstr 0xC8 inyEffect s

/-! DEX (rule R176) -/

/-- `$CA` DEX (rule R176). -/
def execDex (s : State) : Result :=
  impliedInstr 0xCA dexEffect s

/-! DEY (rule R177) -/

/-- `$88` DEY (rule R177). -/
def execDey (s : State) : Result :=
  impliedInstr 0x88 deyEffect s

end Sys2Proof.Machine
end

