-- ==== Sys2Proof/Machine/Control.lean ====
section
/-! DEFINITION. Branches, jumps, calls, returns and the software interrupt (rules R200 to R214). -/

namespace Sys2Proof.Machine

/-- `PC <- op16` (rule R209). -/
def jmpEffect (w : Addr) (s : State) : State := s.setPc w

/-- `PC <- target`, the pointer's second byte wrapping within its page (rule R210). -/
def jmpIndirectEffect (w : Addr) (s : State) : State :=
  let t := indirectTarget w s
  t.2.setPc t.1

/-- Push `PC_next - 1`, then `PC <- op16` (rule R211). -/
def jsrEffect (w : Addr) (s : State) : State := (push16 (s.pc - 1) s).setPc w

/-- `PC <- pulled + 1` (rule R212). -/
def rtsEffect (s : State) : State :=
  let t := pull16 s
  t.2.setPc (t.1 + 1)

/-- The software interrupt: saves the address of BRK + 2 with B = 1 (rules R109, R213, R308); `s` has PC at
BRK + 1. -/
def brkEffect (s : State) : State := enterInterrupt (s.pc + 1) true irqVector s

/-- Return from interrupt (rules R214, R311). -/
def rtiEffect (s : State) : State := returnFromInterrupt s

/-! BPL (rule R201) -/

/-- `$10` BPL d (rule R201). -/
def execBpl (d : Byte) (s : State) : Result :=
  branchInstr 0x10 (fun f => !f.n) d s

/-! BMI (rule R202) -/

/-- `$30` BMI d (rule R202). -/
def execBmi (d : Byte) (s : State) : Result :=
  branchInstr 0x30 (fun f => f.n) d s

/-! BVC (rule R203) -/

/-- `$50` BVC d (rule R203). -/
def execBvc (d : Byte) (s : State) : Result :=
  branchInstr 0x50 (fun f => !f.v) d s

/-! BVS (rule R204) -/

/-- `$70` BVS d (rule R204). -/
def execBvs (d : Byte) (s : State) : Result :=
  branchInstr 0x70 (fun f => f.v) d s

/-! BCC (rule R205) -/

/-- `$90` BCC d (rule R205). -/
def execBcc (d : Byte) (s : State) : Result :=
  branchInstr 0x90 (fun f => !f.c) d s

/-! BCS (rule R206) -/

/-- `$B0` BCS d (rule R206). -/
def execBcs (d : Byte) (s : State) : Result :=
  branchInstr 0xB0 (fun f => f.c) d s

/-! BNE (rule R207) -/

/-- `$D0` BNE d (rule R207). -/
def execBne (d : Byte) (s : State) : Result :=
  branchInstr 0xD0 (fun f => !f.z) d s

/-! BEQ (rule R208) -/

/-- `$F0` BEQ d (rule R208). -/
def execBeq (d : Byte) (s : State) : Result :=
  branchInstr 0xF0 (fun f => f.z) d s

/-! JMP (rule R209) -/

/-- `$4C` JMP w (rule R209). -/
def execJmpAbs (w : Addr) (s : State) : Result :=
  impliedInstr 0x4C (jmpEffect w) s

/-! JMP (rule R210) -/

/-- `$6C` JMP (w) (rule R210). -/
def execJmpInd (w : Addr) (s : State) : Result :=
  impliedInstr 0x6C (jmpIndirectEffect w) s

/-! JSR (rule R211) -/

/-- `$20` JSR w (rule R211). -/
def execJsrAbs (w : Addr) (s : State) : Result :=
  impliedInstr 0x20 (jsrEffect w) s

/-! RTS (rule R212) -/

/-- `$60` RTS (rule R212). -/
def execRts (s : State) : Result :=
  impliedInstr 0x60 rtsEffect s

/-! BRK (rule R213) -/

/-- `$00` BRK (rule R213). -/
def execBrk (s : State) : Result :=
  impliedInstr 0x00 brkEffect s

/-! RTI (rule R214) -/

/-- `$40` RTI (rule R214). -/
def execRti (s : State) : Result :=
  impliedInstr 0x40 rtiEffect s

end Sys2Proof.Machine
end

