-- ==== Sys2Proof/Machine/LoadStore.lean ====
section
/-! DEFINITION. Loads, stores and register transfers (rules R140 to R151). -/

namespace Sys2Proof.Machine

/-- `A <- M; SetNZ(A)` (rule R140). -/
def ldaEffect (m : Byte) (s : State) : State := (s.setA m).setNZ m

/-- `X <- M; SetNZ(X)` (rule R141). -/
def ldxEffect (m : Byte) (s : State) : State := (s.setX m).setNZ m

/-- `Y <- M; SetNZ(Y)` (rule R142). -/
def ldyEffect (m : Byte) (s : State) : State := (s.setY m).setNZ m

/-- `X <- A; SetNZ(X)` (rule R146). -/
def taxEffect (s : State) : State := (s.setX s.a).setNZ s.a

/-- `Y <- A; SetNZ(Y)` (rule R147). -/
def tayEffect (s : State) : State := (s.setY s.a).setNZ s.a

/-- `A <- X; SetNZ(A)` (rule R148). -/
def txaEffect (s : State) : State := (s.setA s.x).setNZ s.x

/-- `A <- Y; SetNZ(A)` (rule R149). -/
def tyaEffect (s : State) : State := (s.setA s.y).setNZ s.y

/-- `X <- SP; SetNZ(X)` (rule R150). -/
def tsxEffect (s : State) : State := (s.setX s.sp).setNZ s.sp

/-- `SP <- X`, no flag (rule R151). -/
def txsEffect (s : State) : State := s.setSp s.x

/-! LDA (rule R140) -/

/-- `$A1` LDA (a,X) (rule R140). -/
def execLdaIndX (a : Byte) (s : State) : Result :=
  readInstr 0xA1 (.memory (.indexedIndirect a)) ldaEffect s

/-- `$A5` LDA a (rule R140). -/
def execLdaZp (a : Byte) (s : State) : Result :=
  readInstr 0xA5 (.memory (.zeroPage a)) ldaEffect s

/-- `$A9` LDA #m (rule R140). -/
def execLdaImm (m : Byte) (s : State) : Result :=
  readInstr 0xA9 (.immediate m) ldaEffect s

/-- `$AD` LDA w (rule R140). -/
def execLdaAbs (w : Addr) (s : State) : Result :=
  readInstr 0xAD (.memory (.absolute w)) ldaEffect s

/-- `$B1` LDA (a),Y (rule R140). -/
def execLdaIndY (a : Byte) (s : State) : Result :=
  readInstr 0xB1 (.memory (.indirectIndexed a)) ldaEffect s

/-- `$B5` LDA a,X (rule R140). -/
def execLdaZpX (a : Byte) (s : State) : Result :=
  readInstr 0xB5 (.memory (.zeroPageX a)) ldaEffect s

/-- `$B9` LDA w,Y (rule R140). -/
def execLdaAbsY (w : Addr) (s : State) : Result :=
  readInstr 0xB9 (.memory (.absoluteY w)) ldaEffect s

/-- `$BD` LDA w,X (rule R140). -/
def execLdaAbsX (w : Addr) (s : State) : Result :=
  readInstr 0xBD (.memory (.absoluteX w)) ldaEffect s

/-! LDX (rule R141) -/

/-- `$A2` LDX #m (rule R141). -/
def execLdxImm (m : Byte) (s : State) : Result :=
  readInstr 0xA2 (.immediate m) ldxEffect s

/-- `$A6` LDX a (rule R141). -/
def execLdxZp (a : Byte) (s : State) : Result :=
  readInstr 0xA6 (.memory (.zeroPage a)) ldxEffect s

/-- `$AE` LDX w (rule R141). -/
def execLdxAbs (w : Addr) (s : State) : Result :=
  readInstr 0xAE (.memory (.absolute w)) ldxEffect s

/-- `$B6` LDX a,Y (rule R141). -/
def execLdxZpY (a : Byte) (s : State) : Result :=
  readInstr 0xB6 (.memory (.zeroPageY a)) ldxEffect s

/-- `$BE` LDX w,Y (rule R141). -/
def execLdxAbsY (w : Addr) (s : State) : Result :=
  readInstr 0xBE (.memory (.absoluteY w)) ldxEffect s

/-! LDY (rule R142) -/

/-- `$A0` LDY #m (rule R142). -/
def execLdyImm (m : Byte) (s : State) : Result :=
  readInstr 0xA0 (.immediate m) ldyEffect s

/-- `$A4` LDY a (rule R142). -/
def execLdyZp (a : Byte) (s : State) : Result :=
  readInstr 0xA4 (.memory (.zeroPage a)) ldyEffect s

/-- `$AC` LDY w (rule R142). -/
def execLdyAbs (w : Addr) (s : State) : Result :=
  readInstr 0xAC (.memory (.absolute w)) ldyEffect s

/-- `$B4` LDY a,X (rule R142). -/
def execLdyZpX (a : Byte) (s : State) : Result :=
  readInstr 0xB4 (.memory (.zeroPageX a)) ldyEffect s

/-- `$BC` LDY w,X (rule R142). -/
def execLdyAbsX (w : Addr) (s : State) : Result :=
  readInstr 0xBC (.memory (.absoluteX w)) ldyEffect s

/-! STA (rule R143) -/

/-- `$81` STA (a,X) (rule R143). -/
def execStaIndX (a : Byte) (s : State) : Result :=
  writeInstr 0x81 (.indexedIndirect a) (fun s => s.a) s

/-- `$85` STA a (rule R143). -/
def execStaZp (a : Byte) (s : State) : Result :=
  writeInstr 0x85 (.zeroPage a) (fun s => s.a) s

/-- `$8D` STA w (rule R143). -/
def execStaAbs (w : Addr) (s : State) : Result :=
  writeInstr 0x8D (.absolute w) (fun s => s.a) s

/-- `$91` STA (a),Y (rule R143). -/
def execStaIndY (a : Byte) (s : State) : Result :=
  writeInstr 0x91 (.indirectIndexed a) (fun s => s.a) s

/-- `$95` STA a,X (rule R143). -/
def execStaZpX (a : Byte) (s : State) : Result :=
  writeInstr 0x95 (.zeroPageX a) (fun s => s.a) s

/-- `$99` STA w,Y (rule R143). -/
def execStaAbsY (w : Addr) (s : State) : Result :=
  writeInstr 0x99 (.absoluteY w) (fun s => s.a) s

/-- `$9D` STA w,X (rule R143). -/
def execStaAbsX (w : Addr) (s : State) : Result :=
  writeInstr 0x9D (.absoluteX w) (fun s => s.a) s

/-! STX (rule R144) -/

/-- `$86` STX a (rule R144). -/
def execStxZp (a : Byte) (s : State) : Result :=
  writeInstr 0x86 (.zeroPage a) (fun s => s.x) s

/-- `$8E` STX w (rule R144). -/
def execStxAbs (w : Addr) (s : State) : Result :=
  writeInstr 0x8E (.absolute w) (fun s => s.x) s

/-- `$96` STX a,Y (rule R144). -/
def execStxZpY (a : Byte) (s : State) : Result :=
  writeInstr 0x96 (.zeroPageY a) (fun s => s.x) s

/-! STY (rule R145) -/

/-- `$84` STY a (rule R145). -/
def execStyZp (a : Byte) (s : State) : Result :=
  writeInstr 0x84 (.zeroPage a) (fun s => s.y) s

/-- `$8C` STY w (rule R145). -/
def execStyAbs (w : Addr) (s : State) : Result :=
  writeInstr 0x8C (.absolute w) (fun s => s.y) s

/-- `$94` STY a,X (rule R145). -/
def execStyZpX (a : Byte) (s : State) : Result :=
  writeInstr 0x94 (.zeroPageX a) (fun s => s.y) s

/-! TAX (rule R146) -/

/-- `$AA` TAX (rule R146). -/
def execTax (s : State) : Result :=
  impliedInstr 0xAA taxEffect s

/-! TAY (rule R147) -/

/-- `$A8` TAY (rule R147). -/
def execTay (s : State) : Result :=
  impliedInstr 0xA8 tayEffect s

/-! TXA (rule R148) -/

/-- `$8A` TXA (rule R148). -/
def execTxa (s : State) : Result :=
  impliedInstr 0x8A txaEffect s

/-! TYA (rule R149) -/

/-- `$98` TYA (rule R149). -/
def execTya (s : State) : Result :=
  impliedInstr 0x98 tyaEffect s

/-! TSX (rule R150) -/

/-- `$BA` TSX (rule R150). -/
def execTsx (s : State) : Result :=
  impliedInstr 0xBA tsxEffect s

/-! TXS (rule R151) -/

/-- `$9A` TXS (rule R151). -/
def execTxs (s : State) : Result :=
  impliedInstr 0x9A txsEffect s

end Sys2Proof.Machine
end

