-- ==== Sys2Proof/Machine/Shift.lean ====
section
/-! DEFINITION. Shifts and rotates (rules R190 to R194), over the flag computations of Flags.lean. -/

namespace Sys2Proof.Machine

/-! ASL (rule R191) -/

/-- `$06` ASL a (rule R191). -/
def execAslZp (a : Byte) (s : State) : Result :=
  rmwInstr 0x06 (.memory (.zeroPage a)) shiftAsl nzEffect s

/-- `$0A` ASL A (rule R191). -/
def execAslAcc (s : State) : Result :=
  rmwInstr 0x0A .accumulator shiftAsl nzEffect s

/-- `$0E` ASL w (rule R191). -/
def execAslAbs (w : Addr) (s : State) : Result :=
  rmwInstr 0x0E (.memory (.absolute w)) shiftAsl nzEffect s

/-- `$16` ASL a,X (rule R191). -/
def execAslZpX (a : Byte) (s : State) : Result :=
  rmwInstr 0x16 (.memory (.zeroPageX a)) shiftAsl nzEffect s

/-- `$1E` ASL w,X (rule R191). -/
def execAslAbsX (w : Addr) (s : State) : Result :=
  rmwInstr 0x1E (.memory (.absoluteX w)) shiftAsl nzEffect s

/-! LSR (rule R192) -/

/-- `$46` LSR a (rule R192). -/
def execLsrZp (a : Byte) (s : State) : Result :=
  rmwInstr 0x46 (.memory (.zeroPage a)) shiftLsr nzEffect s

/-- `$4A` LSR A (rule R192). -/
def execLsrAcc (s : State) : Result :=
  rmwInstr 0x4A .accumulator shiftLsr nzEffect s

/-- `$4E` LSR w (rule R192). -/
def execLsrAbs (w : Addr) (s : State) : Result :=
  rmwInstr 0x4E (.memory (.absolute w)) shiftLsr nzEffect s

/-- `$56` LSR a,X (rule R192). -/
def execLsrZpX (a : Byte) (s : State) : Result :=
  rmwInstr 0x56 (.memory (.zeroPageX a)) shiftLsr nzEffect s

/-- `$5E` LSR w,X (rule R192). -/
def execLsrAbsX (w : Addr) (s : State) : Result :=
  rmwInstr 0x5E (.memory (.absoluteX w)) shiftLsr nzEffect s

/-! ROL (rule R193) -/

/-- `$26` ROL a (rule R193). -/
def execRolZp (a : Byte) (s : State) : Result :=
  rmwInstr 0x26 (.memory (.zeroPage a)) shiftRol nzEffect s

/-- `$2A` ROL A (rule R193). -/
def execRolAcc (s : State) : Result :=
  rmwInstr 0x2A .accumulator shiftRol nzEffect s

/-- `$2E` ROL w (rule R193). -/
def execRolAbs (w : Addr) (s : State) : Result :=
  rmwInstr 0x2E (.memory (.absolute w)) shiftRol nzEffect s

/-- `$36` ROL a,X (rule R193). -/
def execRolZpX (a : Byte) (s : State) : Result :=
  rmwInstr 0x36 (.memory (.zeroPageX a)) shiftRol nzEffect s

/-- `$3E` ROL w,X (rule R193). -/
def execRolAbsX (w : Addr) (s : State) : Result :=
  rmwInstr 0x3E (.memory (.absoluteX w)) shiftRol nzEffect s

/-! ROR (rule R194) -/

/-- `$66` ROR a (rule R194). -/
def execRorZp (a : Byte) (s : State) : Result :=
  rmwInstr 0x66 (.memory (.zeroPage a)) shiftRor nzEffect s

/-- `$6A` ROR A (rule R194). -/
def execRorAcc (s : State) : Result :=
  rmwInstr 0x6A .accumulator shiftRor nzEffect s

/-- `$6E` ROR w (rule R194). -/
def execRorAbs (w : Addr) (s : State) : Result :=
  rmwInstr 0x6E (.memory (.absolute w)) shiftRor nzEffect s

/-- `$76` ROR a,X (rule R194). -/
def execRorZpX (a : Byte) (s : State) : Result :=
  rmwInstr 0x76 (.memory (.zeroPageX a)) shiftRor nzEffect s

/-- `$7E` ROR w,X (rule R194). -/
def execRorAbsX (w : Addr) (s : State) : Result :=
  rmwInstr 0x7E (.memory (.absoluteX w)) shiftRor nzEffect s

end Sys2Proof.Machine
end

