-- ==== Sys2Proof/Machine/StackFlags.lean ====
section
/-! DEFINITION. Stack operations, flag operations and NOP (rules R220 to R231). -/

namespace Sys2Proof.Machine

/-- `Push(A)` (rule R220). -/
def phaEffect (s : State) : State := push s.a s

/-- `Push(Pack(1))` (rule R221). -/
def phpEffect (s : State) : State := push (s.flags.pack true) s

/-- `A <- Pull(); SetNZ(A)` (rule R222). -/
def plaEffect (s : State) : State :=
  let r := pull s
  (r.2.setA r.1).setNZ r.1

/-- `Unpack(Pull())` (rule R223). -/
def plpEffect (s : State) : State :=
  let r := pull s
  r.2.setFlags (Flags.unpack r.1)

/-- `C <- 0` (rule R224). -/
def clcEffect (s : State) : State := s.setFlags { s.flags with c := false }

/-- `C <- 1` (rule R225). -/
def secEffect (s : State) : State := s.setFlags { s.flags with c := true }

/-- `I <- 0` (rule R226). -/
def cliEffect (s : State) : State := s.setFlags { s.flags with i := false }

/-- `I <- 1` (rule R227). -/
def seiEffect (s : State) : State := s.setFlags { s.flags with i := true }

/-- `D <- 0` (rule R228). -/
def cldEffect (s : State) : State := s.setFlags { s.flags with d := false }

/-- `D <- 1` (rule R229). -/
def sedEffect (s : State) : State := s.setFlags { s.flags with d := true }

/-- `V <- 0` (rule R230). -/
def clvEffect (s : State) : State := s.setFlags { s.flags with v := false }

/-! PHA (rule R220) -/

/-- `$48` PHA (rule R220). -/
def execPha (s : State) : Result :=
  impliedInstr 0x48 phaEffect s

/-! PHP (rule R221) -/

/-- `$08` PHP (rule R221). -/
def execPhp (s : State) : Result :=
  impliedInstr 0x08 phpEffect s

/-! PLA (rule R222) -/

/-- `$68` PLA (rule R222). -/
def execPla (s : State) : Result :=
  impliedInstr 0x68 plaEffect s

/-! PLP (rule R223) -/

/-- `$28` PLP (rule R223). -/
def execPlp (s : State) : Result :=
  impliedInstr 0x28 plpEffect s

/-! CLC (rule R224) -/

/-- `$18` CLC (rule R224). -/
def execClc (s : State) : Result :=
  impliedInstr 0x18 clcEffect s

/-! SEC (rule R225) -/

/-- `$38` SEC (rule R225). -/
def execSec (s : State) : Result :=
  impliedInstr 0x38 secEffect s

/-! CLI (rule R226) -/

/-- `$58` CLI (rule R226). -/
def execCli (s : State) : Result :=
  impliedInstr 0x58 cliEffect s

/-! SEI (rule R227) -/

/-- `$78` SEI (rule R227). -/
def execSei (s : State) : Result :=
  impliedInstr 0x78 seiEffect s

/-! CLD (rule R228) -/

/-- `$D8` CLD (rule R228). -/
def execCld (s : State) : Result :=
  impliedInstr 0xD8 cldEffect s

/-! SED (rule R229) -/

/-- `$F8` SED (rule R229). -/
def execSed (s : State) : Result :=
  impliedInstr 0xF8 sedEffect s

/-! CLV (rule R230) -/

/-- `$B8` CLV (rule R230). -/
def execClv (s : State) : Result :=
  impliedInstr 0xB8 clvEffect s

/-! NOP (rule R231) -/

/-- `$EA` NOP (rule R231). -/
def execNop (s : State) : Result :=
  impliedInstr 0xEA (fun s => s) s

end Sys2Proof.Machine
end

