-- ==== Sys2Proof/Machine/Unofficial.lean ====
section
/-! DEFINITION. The 85 admitted unofficial opcodes and the 12 JAM opcodes (rules R241 to R257). The combined
read-modify-write opcodes reuse the shifts of Flags.lean and the accumulator effects of Arith.lean. -/

namespace Sys2Proof.Machine

/-- `A <- M; X <- M; SetNZ(M)` (rule R244). -/
def laxEffect (m : Byte) (s : State) : State := ((s.setA m).setX m).setNZ m

/-- `A <- A & op8; SetNZ(A); C <- A[7]` (rule R253). -/
def ancEffect (m : Byte) (s : State) : State :=
  let r := s.a &&& m
  (s.setA r).setFlags { s.flags.setNZ r with c := bit r 7 }

/-- `t <- A & op8; C <- t[0]; A <- t >> 1; SetNZ(A)` (rule R254). -/
def alrEffect (m : Byte) (s : State) : State :=
  let r := shiftLsr (s.a &&& m) s.flags
  ((s.setA r.1).setFlags r.2).setNZ r.1

/-- `A <- ((A & op8) >> 1) | (C << 7); SetNZ(A); C <- A[6]; V <- A[6] xor A[5]` (rule R255). -/
def arrEffect (m : Byte) (s : State) : State :=
  let r := (shiftRor (s.a &&& m) s.flags).1
  (s.setA r).setFlags { s.flags.setNZ r with c := bit r 6, v := bit r 6 ^^ bit r 5 }

/-- `t <- A & X; C <- (t >= op8); X <- t - op8; SetNZ(X)` (rule R256). -/
def axsEffect (m : Byte) (s : State) : State :=
  let t := s.a &&& s.x
  (s.setX (t - m)).setFlags { s.flags.setNZ (t - m) with c := decide (m.toNat ≤ t.toNat) }

/-- `halted <- true` (rule R257). -/
def jamEffect (s : State) : State := { s with halted := true }

/-! NOP (rule R241) -/

/-- `$1A` `$3A` `$5A` `$7A` `$DA` `$FA` NOP (rule R241). -/
def execNopImp (op : Byte) (s : State) : Result :=
  impliedInstr op (fun s => s) s

/-! NOP (rule R242) -/

/-- `$80` `$82` `$89` `$C2` `$E2` NOP #m (rule R242). -/
def execNopImm (op m : Byte) (s : State) : Result :=
  readInstr op (.immediate m) (fun _ s => s) s

/-! NOP (rule R243) -/

/-- `$04` `$44` `$64` NOP a (rule R243). -/
def execNopZp (op a : Byte) (s : State) : Result :=
  readInstr op (.memory (.zeroPage a)) (fun _ s => s) s

/-- `$0C` NOP w (rule R243). -/
def execNopAbs (w : Addr) (s : State) : Result :=
  readInstr 0x0C (.memory (.absolute w)) (fun _ s => s) s

/-- `$14` `$34` `$54` `$74` `$D4` `$F4` NOP a,X (rule R243). -/
def execNopZpX (op a : Byte) (s : State) : Result :=
  readInstr op (.memory (.zeroPageX a)) (fun _ s => s) s

/-- `$1C` `$3C` `$5C` `$7C` `$DC` `$FC` NOP w,X (rule R243). -/
def execNopAbsX (op : Byte) (w : Addr) (s : State) : Result :=
  readInstr op (.memory (.absoluteX w)) (fun _ s => s) s

/-! LAX (rule R244) -/

/-- `$A3` LAX (a,X) (rule R244). -/
def execLaxIndX (a : Byte) (s : State) : Result :=
  readInstr 0xA3 (.memory (.indexedIndirect a)) laxEffect s

/-- `$A7` LAX a (rule R244). -/
def execLaxZp (a : Byte) (s : State) : Result :=
  readInstr 0xA7 (.memory (.zeroPage a)) laxEffect s

/-- `$AF` LAX w (rule R244). -/
def execLaxAbs (w : Addr) (s : State) : Result :=
  readInstr 0xAF (.memory (.absolute w)) laxEffect s

/-- `$B3` LAX (a),Y (rule R244). -/
def execLaxIndY (a : Byte) (s : State) : Result :=
  readInstr 0xB3 (.memory (.indirectIndexed a)) laxEffect s

/-- `$B7` LAX a,Y (rule R244). -/
def execLaxZpY (a : Byte) (s : State) : Result :=
  readInstr 0xB7 (.memory (.zeroPageY a)) laxEffect s

/-- `$BF` LAX w,Y (rule R244). -/
def execLaxAbsY (w : Addr) (s : State) : Result :=
  readInstr 0xBF (.memory (.absoluteY w)) laxEffect s

/-! SAX (rule R245) -/

/-- `$83` SAX (a,X) (rule R245). -/
def execSaxIndX (a : Byte) (s : State) : Result :=
  writeInstr 0x83 (.indexedIndirect a) (fun s => s.a &&& s.x) s

/-- `$87` SAX a (rule R245). -/
def execSaxZp (a : Byte) (s : State) : Result :=
  writeInstr 0x87 (.zeroPage a) (fun s => s.a &&& s.x) s

/-- `$8F` SAX w (rule R245). -/
def execSaxAbs (w : Addr) (s : State) : Result :=
  writeInstr 0x8F (.absolute w) (fun s => s.a &&& s.x) s

/-- `$97` SAX a,Y (rule R245). -/
def execSaxZpY (a : Byte) (s : State) : Result :=
  writeInstr 0x97 (.zeroPageY a) (fun s => s.a &&& s.x) s

/-! SBC (rule R246) -/

/-- `$EB` SBC #m (rule R246). -/
def execSbcImmEB (m : Byte) (s : State) : Result :=
  readInstr 0xEB (.immediate m) sbcEffect s

/-! SLO (rule R247) -/

/-- `$03` SLO (a,X) (rule R247). -/
def execSloIndX (a : Byte) (s : State) : Result :=
  rmwInstr 0x03 (.memory (.indexedIndirect a)) shiftAsl oraEffect s

/-- `$07` SLO a (rule R247). -/
def execSloZp (a : Byte) (s : State) : Result :=
  rmwInstr 0x07 (.memory (.zeroPage a)) shiftAsl oraEffect s

/-- `$0F` SLO w (rule R247). -/
def execSloAbs (w : Addr) (s : State) : Result :=
  rmwInstr 0x0F (.memory (.absolute w)) shiftAsl oraEffect s

/-- `$13` SLO (a),Y (rule R247). -/
def execSloIndY (a : Byte) (s : State) : Result :=
  rmwInstr 0x13 (.memory (.indirectIndexed a)) shiftAsl oraEffect s

/-- `$17` SLO a,X (rule R247). -/
def execSloZpX (a : Byte) (s : State) : Result :=
  rmwInstr 0x17 (.memory (.zeroPageX a)) shiftAsl oraEffect s

/-- `$1B` SLO w,Y (rule R247). -/
def execSloAbsY (w : Addr) (s : State) : Result :=
  rmwInstr 0x1B (.memory (.absoluteY w)) shiftAsl oraEffect s

/-- `$1F` SLO w,X (rule R247). -/
def execSloAbsX (w : Addr) (s : State) : Result :=
  rmwInstr 0x1F (.memory (.absoluteX w)) shiftAsl oraEffect s

/-! RLA (rule R248) -/

/-- `$23` RLA (a,X) (rule R248). -/
def execRlaIndX (a : Byte) (s : State) : Result :=
  rmwInstr 0x23 (.memory (.indexedIndirect a)) shiftRol andEffect s

/-- `$27` RLA a (rule R248). -/
def execRlaZp (a : Byte) (s : State) : Result :=
  rmwInstr 0x27 (.memory (.zeroPage a)) shiftRol andEffect s

/-- `$2F` RLA w (rule R248). -/
def execRlaAbs (w : Addr) (s : State) : Result :=
  rmwInstr 0x2F (.memory (.absolute w)) shiftRol andEffect s

/-- `$33` RLA (a),Y (rule R248). -/
def execRlaIndY (a : Byte) (s : State) : Result :=
  rmwInstr 0x33 (.memory (.indirectIndexed a)) shiftRol andEffect s

/-- `$37` RLA a,X (rule R248). -/
def execRlaZpX (a : Byte) (s : State) : Result :=
  rmwInstr 0x37 (.memory (.zeroPageX a)) shiftRol andEffect s

/-- `$3B` RLA w,Y (rule R248). -/
def execRlaAbsY (w : Addr) (s : State) : Result :=
  rmwInstr 0x3B (.memory (.absoluteY w)) shiftRol andEffect s

/-- `$3F` RLA w,X (rule R248). -/
def execRlaAbsX (w : Addr) (s : State) : Result :=
  rmwInstr 0x3F (.memory (.absoluteX w)) shiftRol andEffect s

/-! SRE (rule R249) -/

/-- `$43` SRE (a,X) (rule R249). -/
def execSreIndX (a : Byte) (s : State) : Result :=
  rmwInstr 0x43 (.memory (.indexedIndirect a)) shiftLsr eorEffect s

/-- `$47` SRE a (rule R249). -/
def execSreZp (a : Byte) (s : State) : Result :=
  rmwInstr 0x47 (.memory (.zeroPage a)) shiftLsr eorEffect s

/-- `$4F` SRE w (rule R249). -/
def execSreAbs (w : Addr) (s : State) : Result :=
  rmwInstr 0x4F (.memory (.absolute w)) shiftLsr eorEffect s

/-- `$53` SRE (a),Y (rule R249). -/
def execSreIndY (a : Byte) (s : State) : Result :=
  rmwInstr 0x53 (.memory (.indirectIndexed a)) shiftLsr eorEffect s

/-- `$57` SRE a,X (rule R249). -/
def execSreZpX (a : Byte) (s : State) : Result :=
  rmwInstr 0x57 (.memory (.zeroPageX a)) shiftLsr eorEffect s

/-- `$5B` SRE w,Y (rule R249). -/
def execSreAbsY (w : Addr) (s : State) : Result :=
  rmwInstr 0x5B (.memory (.absoluteY w)) shiftLsr eorEffect s

/-- `$5F` SRE w,X (rule R249). -/
def execSreAbsX (w : Addr) (s : State) : Result :=
  rmwInstr 0x5F (.memory (.absoluteX w)) shiftLsr eorEffect s

/-! RRA (rule R250) -/

/-- `$63` RRA (a,X) (rule R250). -/
def execRraIndX (a : Byte) (s : State) : Result :=
  rmwInstr 0x63 (.memory (.indexedIndirect a)) shiftRor adcEffect s

/-- `$67` RRA a (rule R250). -/
def execRraZp (a : Byte) (s : State) : Result :=
  rmwInstr 0x67 (.memory (.zeroPage a)) shiftRor adcEffect s

/-- `$6F` RRA w (rule R250). -/
def execRraAbs (w : Addr) (s : State) : Result :=
  rmwInstr 0x6F (.memory (.absolute w)) shiftRor adcEffect s

/-- `$73` RRA (a),Y (rule R250). -/
def execRraIndY (a : Byte) (s : State) : Result :=
  rmwInstr 0x73 (.memory (.indirectIndexed a)) shiftRor adcEffect s

/-- `$77` RRA a,X (rule R250). -/
def execRraZpX (a : Byte) (s : State) : Result :=
  rmwInstr 0x77 (.memory (.zeroPageX a)) shiftRor adcEffect s

/-- `$7B` RRA w,Y (rule R250). -/
def execRraAbsY (w : Addr) (s : State) : Result :=
  rmwInstr 0x7B (.memory (.absoluteY w)) shiftRor adcEffect s

/-- `$7F` RRA w,X (rule R250). -/
def execRraAbsX (w : Addr) (s : State) : Result :=
  rmwInstr 0x7F (.memory (.absoluteX w)) shiftRor adcEffect s

/-! DCP (rule R251) -/

/-- `$C3` DCP (a,X) (rule R251). -/
def execDcpIndX (a : Byte) (s : State) : Result :=
  rmwInstr 0xC3 (.memory (.indexedIndirect a)) stepDec cmpEffect s

/-- `$C7` DCP a (rule R251). -/
def execDcpZp (a : Byte) (s : State) : Result :=
  rmwInstr 0xC7 (.memory (.zeroPage a)) stepDec cmpEffect s

/-- `$CF` DCP w (rule R251). -/
def execDcpAbs (w : Addr) (s : State) : Result :=
  rmwInstr 0xCF (.memory (.absolute w)) stepDec cmpEffect s

/-- `$D3` DCP (a),Y (rule R251). -/
def execDcpIndY (a : Byte) (s : State) : Result :=
  rmwInstr 0xD3 (.memory (.indirectIndexed a)) stepDec cmpEffect s

/-- `$D7` DCP a,X (rule R251). -/
def execDcpZpX (a : Byte) (s : State) : Result :=
  rmwInstr 0xD7 (.memory (.zeroPageX a)) stepDec cmpEffect s

/-- `$DB` DCP w,Y (rule R251). -/
def execDcpAbsY (w : Addr) (s : State) : Result :=
  rmwInstr 0xDB (.memory (.absoluteY w)) stepDec cmpEffect s

/-- `$DF` DCP w,X (rule R251). -/
def execDcpAbsX (w : Addr) (s : State) : Result :=
  rmwInstr 0xDF (.memory (.absoluteX w)) stepDec cmpEffect s

/-! ISB (rule R252) -/

/-- `$E3` ISB (a,X) (rule R252). -/
def execIsbIndX (a : Byte) (s : State) : Result :=
  rmwInstr 0xE3 (.memory (.indexedIndirect a)) stepInc sbcEffect s

/-- `$E7` ISB a (rule R252). -/
def execIsbZp (a : Byte) (s : State) : Result :=
  rmwInstr 0xE7 (.memory (.zeroPage a)) stepInc sbcEffect s

/-- `$EF` ISB w (rule R252). -/
def execIsbAbs (w : Addr) (s : State) : Result :=
  rmwInstr 0xEF (.memory (.absolute w)) stepInc sbcEffect s

/-- `$F3` ISB (a),Y (rule R252). -/
def execIsbIndY (a : Byte) (s : State) : Result :=
  rmwInstr 0xF3 (.memory (.indirectIndexed a)) stepInc sbcEffect s

/-- `$F7` ISB a,X (rule R252). -/
def execIsbZpX (a : Byte) (s : State) : Result :=
  rmwInstr 0xF7 (.memory (.zeroPageX a)) stepInc sbcEffect s

/-- `$FB` ISB w,Y (rule R252). -/
def execIsbAbsY (w : Addr) (s : State) : Result :=
  rmwInstr 0xFB (.memory (.absoluteY w)) stepInc sbcEffect s

/-- `$FF` ISB w,X (rule R252). -/
def execIsbAbsX (w : Addr) (s : State) : Result :=
  rmwInstr 0xFF (.memory (.absoluteX w)) stepInc sbcEffect s

/-! ANC (rule R253) -/

/-- `$0B` `$2B` ANC #m (rule R253). -/
def execAncImm (op m : Byte) (s : State) : Result :=
  readInstr op (.immediate m) ancEffect s

/-! ALR (rule R254) -/

/-- `$4B` ALR #m (rule R254). -/
def execAlrImm (m : Byte) (s : State) : Result :=
  readInstr 0x4B (.immediate m) alrEffect s

/-! ARR (rule R255) -/

/-- `$6B` ARR #m (rule R255). -/
def execArrImm (m : Byte) (s : State) : Result :=
  readInstr 0x6B (.immediate m) arrEffect s

/-! AXS (rule R256) -/

/-- `$CB` AXS #m (rule R256). -/
def execAxsImm (m : Byte) (s : State) : Result :=
  readInstr 0xCB (.immediate m) axsEffect s

/-! JAM (rule R257) -/

/-- `$02` `$12` `$22` `$32` `$42` `$52` `$62` `$72` `$92` `$B2` `$D2` `$F2` JAM (rule R257). -/
def execJam (op : Byte) (s : State) : Result :=
  impliedInstr op jamEffect s

end Sys2Proof.Machine
end

