-- ==== Sys2Proof/Machine/Unstable.lean ====
section
/-! DEFINITION. The eight unstable opcodes (rules R258 to R264) under the parameter `UNSTABLE_OPCODES` (rule R240,
D4). With `refuse`, the spec's default, executing one moves PC past it, sets the `refused` mark and changes nothing
else (rule R502). With `silicon` it has the effect its rule quotes of the chip, every value the quote leaves open
being a free value of Config.lean (assumptions 8 and 9). -/

namespace Sys2Proof.Machine

/-- An unstable opcode: the mark, or the effect the model supplies. `run` answers the state after the effect
and the stall a write to `$4014` adds to a cost it is given. -/
def unstableInstr (op : Byte) (run : State → State × (Nat → Nat)) (s : State) : Result :=
  match s.params.unstable with
  | .refuse => .next { s.advance op with refused := true }
  | .silicon =>
    let r := run (s.advance op)
    let cost := Config.unstableCost op + 1
    .next (r.1.setRemaining (cost + r.2 cost))

/-- No stall. -/
def noStall : Nat → Nat := fun _ => 0

/-- `A <- (A | magic) & X & op8`; flags N, Z (rule R258). -/
def xaaEffect (m : Byte) (s : State) : State × (Nat → Nat) :=
  let r := (s.a ||| Config.xaaMagic) &&& s.x &&& m
  ((s.setA r).setNZ r, noStall)

/-- `A <- X <- (A | magic) & op8`; flags N, Z (rule R259). -/
def lxaEffect (m : Byte) (s : State) : State × (Nat → Nat) :=
  let r := (s.a ||| Config.lxaMagic) &&& m
  (((s.setA r).setX r).setNZ r, noStall)

/-- `A <- X <- SP <- M & SP`; flags N, Z (rule R264). -/
def lasEffect (o : MemOperand) (s : State) : State × (Nat → Nat) :=
  let l := load (.memory o) s
  let r := l.value &&& s.sp
  ((((l.state.setA r).setX r).setSp r).setNZ r, noStall)

/-- The high byte of the base address of an indexed operand: of the operand word, or of the zero-page pointer
(rules R129, R130, R133, R260). -/
def baseHigh (o : MemOperand) (s : State) : Byte :=
  match o with
  | .indirectIndexed a => hiByte (zeroPagePointer a s).1
  | .absolute w | .absoluteX w | .absoluteY w => hiByte w
  | .zeroPage _ | .zeroPageX _ | .zeroPageY _ => 0
  | .indexedIndirect a => hiByte (zeroPagePointer (a + s.x) s).1

/-- A store of `v & (base high + 1)` whose address is corrupted, to a free value, when the index crosses a page
(rules R260, R262, R263). -/
def corruptibleStore (o : MemOperand) (v : Byte) (s : State) : State × (Nat → Nat) :=
  let r := resolve o s
  let value := v &&& (baseHigh o s + 1)
  if r.crossed then
    let ea := Config.unstableAddr s.draws
    (memWrite ea value r.state.drawn, fun cost => dmaStall s.cycles cost ea)
  else
    (memWrite r.ea value r.state, fun cost => dmaStall s.cycles cost r.ea)

/-- Stores `A & X & (base high + 1)` (rule R260). -/
def ahxEffect (o : MemOperand) (s : State) : State × (Nat → Nat) := corruptibleStore o (s.a &&& s.x) s

/-- Stores `Y & (base high + 1)` (rule R262). -/
def shyEffect (o : MemOperand) (s : State) : State × (Nat → Nat) := corruptibleStore o s.y s

/-- Stores `X & (base high + 1)` (rule R263). -/
def shxEffect (o : MemOperand) (s : State) : State × (Nat → Nat) := corruptibleStore o s.x s

/-- `SP <- A & X`, then stores `SP & (base high + 1)` at `ea` (rule R261). -/
def tasEffect (o : MemOperand) (s : State) : State × (Nat → Nat) :=
  let sp := s.a &&& s.x
  let r := resolve o s
  (memWrite r.ea (sp &&& (baseHigh o s + 1)) (r.state.setSp sp), fun cost => dmaStall s.cycles cost r.ea)

/-! XAA (rule R258) -/

/-- `$8B` XAA #m (rule R258). -/
def execXaaImm (m : Byte) (s : State) : Result :=
  unstableInstr 0x8B (xaaEffect m) s

/-! LXA (rule R259) -/

/-- `$AB` LXA #m (rule R259). -/
def execLxaImm (m : Byte) (s : State) : Result :=
  unstableInstr 0xAB (lxaEffect m) s

/-! AHX (rule R260) -/

/-- `$93` AHX (a),Y (rule R260). -/
def execAhxIndY (a : Byte) (s : State) : Result :=
  unstableInstr 0x93 (ahxEffect (.indirectIndexed a)) s

/-- `$9F` AHX w,Y (rule R260). -/
def execAhxAbsY (w : Addr) (s : State) : Result :=
  unstableInstr 0x9F (ahxEffect (.absoluteY w)) s

/-! TAS (rule R261) -/

/-- `$9B` TAS w,Y (rule R261). -/
def execTasAbsY (w : Addr) (s : State) : Result :=
  unstableInstr 0x9B (tasEffect (.absoluteY w)) s

/-! SHY (rule R262) -/

/-- `$9C` SHY w,X (rule R262). -/
def execShyAbsX (w : Addr) (s : State) : Result :=
  unstableInstr 0x9C (shyEffect (.absoluteX w)) s

/-! SHX (rule R263) -/

/-- `$9E` SHX w,Y (rule R263). -/
def execShxAbsY (w : Addr) (s : State) : Result :=
  unstableInstr 0x9E (shxEffect (.absoluteY w)) s

/-! LAS (rule R264) -/

/-- `$BB` LAS w,Y (rule R264). -/
def execLasAbsY (w : Addr) (s : State) : Result :=
  unstableInstr 0xBB (lasEffect (.absoluteY w)) s

end Sys2Proof.Machine
end

