-- ==== Sys2Proof/Machine/PpuTick.lean ====
section
/-! DEFINITION. One picture-unit tick (rules R401, R402, R415 to R436): the flag events, the background pipeline, the
sprite pipeline, the pixel output, the NMI output and the advance, in the order of rule R421. -/

namespace Sys2Proof.Machine

/-- `scanline = tick / 341` (rule R401). -/
def Ppu.scanline (p : Ppu) : Nat := p.tick / 341

/-- `cycle = tick mod 341` (rule R401). -/
def Ppu.cycle (p : Ppu) : Nat := p.tick % 341

/-- The visible lines 0 to 239 and the pre-render line 261 (rule R401). -/
def renderLine (line : Nat) : Bool := decide (line < 240) || decide (line = 261)

/-- Rendering is enabled by show-background or show-sprites (rule R415). -/
def Ppu.rendering (p : Ppu) : Bool := bit p.mask 3 || bit p.mask 4

/-- VBlank set at `(241, 1)` unless suppressed, cleared at `(261, 1)`; sprite-zero hit and overflow cleared at
`(261, 0)` (rules R416, R417). -/
def Ppu.flagEvents (p : Ppu) : Ppu :=
  if p.tick = 82182 then { p with vblank := p.vblank || !p.suppress, suppress := false }
  else if p.tick = 89001 then { p with sprite0Hit := false, spriteOverflow := false }
  else if p.tick = 89002 then { p with vblank := false }
  else p

/-! ### Scroll fields of `v` and `t` (rule R409) -/

def coarseX (v : BitVec 15) : BitVec 5 := v.extractLsb' 0 5
def coarseY (v : BitVec 15) : BitVec 5 := v.extractLsb' 5 5
def nametableSelect (v : BitVec 15) : BitVec 2 := v.extractLsb' 10 2
def fineY (v : BitVec 15) : BitVec 3 := v.extractLsb' 12 3

/-- The VRAM address with the given fields. -/
def scrollAddr (fy : BitVec 3) (nt : BitVec 2) (cy cx : BitVec 5) : BitVec 15 := fy ++ nt ++ cy ++ cx

/-- The coarse X increment, wrapping into the horizontally adjacent nametable (rule R425). -/
def incCoarseX (v : BitVec 15) : BitVec 15 :=
  if coarseX v = 31 then scrollAddr (fineY v) (nametableSelect v ^^^ 1) (coarseY v) 0
  else scrollAddr (fineY v) (nametableSelect v) (coarseY v) (coarseX v + 1)

/-- The Y increment (rule R426): row 29 switches the nametable, row 31 wraps without switching. -/
def incY (v : BitVec 15) : BitVec 15 :=
  if fineY v ≠ 7 then scrollAddr (fineY v + 1) (nametableSelect v) (coarseY v) (coarseX v)
  else if coarseY v = 29 then scrollAddr 0 (nametableSelect v ^^^ 2) 0 (coarseX v)
  else if coarseY v = 31 then scrollAddr 0 (nametableSelect v) 0 (coarseX v)
  else scrollAddr 0 (nametableSelect v) (coarseY v + 1) (coarseX v)

/-- The horizontal copy: coarse X and `v[10]` from `t` (rule R427). -/
def copyHorizontal (v t : BitVec 15) : BitVec 15 :=
  scrollAddr (fineY v) ((v.extractLsb' 11 1 : BitVec 1) ++ t.extractLsb' 10 1) (coarseY v) (coarseX t)

/-- The vertical copy: coarse Y, `v[11]` and fine Y from `t` (rule R428). -/
def copyVertical (v t : BitVec 15) : BitVec 15 :=
  scrollAddr (fineY t) ((t.extractLsb' 11 1 : BitVec 1) ++ v.extractLsb' 10 1) (coarseY t) (coarseX v)

/-! ### Background pipeline -/

/-- `NtAddr(v)` (rule R424). -/
def ntAddr (v : BitVec 15) : BitVec 14 := 0x2000 ||| (v.extractLsb' 0 12).setWidth 14

/-- `AtAddr(v)` (rule R424). -/
def atAddr (v : BitVec 15) : BitVec 14 :=
  0x23C0 ||| ((v.extractLsb' 10 2).setWidth 14 <<< 10) ||| ((v.extractLsb' 7 3).setWidth 14 <<< 3) |||
    (v.extractLsb' 2 3).setWidth 14

/-- `AtBits(v, b)`: the palette bits of the quadrant (rule R424). -/
def atBits (v : BitVec 15) (b : Byte) : BitVec 2 :=
  (b >>> ((if v.getLsbD 6 then 4 else 0) + (if v.getLsbD 1 then 2 else 0))).extractLsb' 0 2

/-- `PtAddr(n, v)`: the low-plane row of tile `n` (rule R424). -/
def Ppu.ptAddr (p : Ppu) (n : Byte) (v : BitVec 15) : BitVec 14 :=
  (if bit p.ctrl 4 then 0x1000 else 0) + 16 * n.setWidth 14 + (fineY v).setWidth 14

/-- Cycles at which the background shifters shift (rule R422). -/
def shiftDue (c : Nat) : Bool := (decide (2 ≤ c) && decide (c ≤ 257)) || (decide (322 ≤ c) && decide (c ≤ 337))

/-- Cycles at which the shifters' low bytes are reloaded (rule R422). -/
def reloadDue (c : Nat) : Bool :=
  (decide (9 ≤ c) && decide (c ≤ 257) && decide (c % 8 = 1)) || decide (c = 329) || decide (c = 337)

/-- Cycles of the 8-cycle fetch pattern (rule R423). -/
def fetchDue (c : Nat) : Bool := (decide (1 ≤ c) && decide (c ≤ 256)) || (decide (321 ≤ c) && decide (c ≤ 336))

/-- All four shifters one bit to the left, 0 into bit 0 (rule R422). -/
def Ppu.shift (p : Ppu) : Ppu :=
  { p with bgLo := p.bgLo <<< 1, bgHi := p.bgHi <<< 1, atLo := p.atLo <<< 1, atHi := p.atHi <<< 1 }

/-- `$FF` or `$00`. -/
def spread (b : Bool) : Byte := if b then 0xFF else 0x00

/-- The low bytes of the shifters from the latches, the high bytes kept (rule R422). -/
def Ppu.reload (p : Ppu) : Ppu :=
  { p with
    bgLo := (p.bgLo.extractLsb' 8 8 : Byte) ++ p.ptLoLatch
    bgHi := (p.bgHi.extractLsb' 8 8 : Byte) ++ p.ptHiLatch
    atLo := (p.atLo.extractLsb' 8 8 : Byte) ++ spread (p.atLatch.getLsbD 0)
    atHi := (p.atHi.extractLsb' 8 8 : Byte) ++ spread (p.atLatch.getLsbD 1) }

/-- Step `k` of the fetch pattern (rule R423). -/
def Ppu.fetchStep (cart : Cartridge) (k : Nat) (p : Ppu) : Ppu :=
  match k with
  | 0 => { p with ntLatch := ppuRead cart p (ntAddr p.v) }
  | 2 => { p with atLatch := atBits p.v (ppuRead cart p (atAddr p.v)) }
  | 4 => { p with ptLoLatch := ppuRead cart p (p.ptAddr p.ntLatch p.v) }
  | 6 => { p with ptHiLatch := ppuRead cart p (p.ptAddr p.ntLatch p.v + 8) }
  | 7 => { p with v := incCoarseX p.v }
  | _ => p

/-- The changes of `v` after the fetch step of cycle `c` of line `s` (rules R426 to R428). -/
def Ppu.scrollEvents (line c : Nat) (p : Ppu) : Ppu :=
  if c = 256 then { p with v := incY p.v }
  else if c = 257 then { p with v := copyHorizontal p.v p.t }
  else if line = 261 ∧ 280 ≤ c ∧ c ≤ 304 then { p with v := copyVertical p.v p.t }
  else p

/-- The background steps of cycle `c` of render line `line`: shift, reload, fetch, scroll (rules R422 to R428). -/
def Ppu.background (cart : Cartridge) (line c : Nat) (p : Ppu) : Ppu :=
  let p1 := if shiftDue c then p.shift else p
  let p2 := if reloadDue c then p1.reload else p1
  let p3 := if fetchDue c then p2.fetchStep cart ((c - 1) % 8) else p2
  p3.scrollEvents line c

/-! ### Sprite pipeline -/

/-- The sprite height: 16 when `ctrl[5]`, else 8 (rules R404, R430). -/
def Ppu.spriteHeight (p : Ppu) : Nat := if bit p.ctrl 5 then 16 else 8

/-- OAM sprite `n` as its four bytes (rule R437). -/
def Ppu.oamSprite (p : Ppu) (n : Nat) : SpriteEntry :=
  ⟨p.oam.read (4 * n), p.oam.read (4 * n + 1), p.oam.read (4 * n + 2), p.oam.read (4 * n + 3)⟩

/-- In range for the line after `line`: `0 <= line - Y < h` (rule R430). -/
def SpriteEntry.inRange (e : SpriteEntry) (line h : Nat) : Bool :=
  decide (e.y.toNat ≤ line) && decide (line < e.y.toNat + h)

/-- The sprites in range, in OAM order. -/
def Ppu.inRangeSprites (p : Ppu) (line : Nat) : List SpriteEntry :=
  ((List.range 64).map p.oamSprite).filter fun e => e.inRange line p.spriteHeight

/-- Sprite evaluation at cycle 257: the first eight in range on a visible line, and overflow when there is a ninth
(rules R430, R431); nothing on the pre-render line. -/
def Ppu.evaluateSprites (line : Nat) (p : Ppu) : Ppu :=
  if line < 240 then
    let found := p.inRangeSprites line
    { p with
      sec := found.take 8
      secHas0 := (p.oamSprite 0).inRange line p.spriteHeight
      spriteOverflow := p.spriteOverflow || decide (8 < found.length) }
  else
    { p with sec := [], secHas0 := false }

/-- The row of a sprite on line `line`, flipped vertically when attribute bit 7 is set (rule R432). -/
def SpriteEntry.row (e : SpriteEntry) (line h : Nat) : Int :=
  let row : Int := (line : Int) - (e.y.toNat : Int)
  if bit e.attr 7 then (h : Int) - 1 - row else row

/-- The pattern address of a sprite's row, modulo 2^14 (rules R69, R432). -/
def Ppu.spriteAddr (p : Ppu) (e : SpriteEntry) (line : Nat) : BitVec 14 :=
  let row := e.row line p.spriteHeight
  if bit p.ctrl 5 then
    let tile : Int := ((e.tile &&& 0xFE).toNat : Int) + (if 8 ≤ row then 1 else 0)
    BitVec.ofInt 14 ((if bit e.tile 0 then 0x1000 else 0) + 16 * tile + row % 8)
  else
    BitVec.ofInt 14 ((if bit p.ctrl 3 then 0x1000 else 0) + 16 * (e.tile.toNat : Int) + row)

/-- A slot's contents from a secondary-buffer entry, flipped horizontally when attribute bit 6 is set (rule R432). -/
def Ppu.loadSlot (cart : Cartridge) (line : Nat) (p : Ppu) (e : SpriteEntry) : SpriteSlot :=
  let addr := p.spriteAddr e line
  let lo := ppuRead cart p addr
  let hi := ppuRead cart p (addr + 8)
  if bit e.attr 6 then ⟨reverseBits lo, reverseBits hi, e.attr, e.xpos⟩ else ⟨lo, hi, e.attr, e.xpos⟩

/-- The fetch of slot `k`: an entry's patterns, or zeros with no read (rule R432). -/
def Ppu.fetchSlot (cart : Cartridge) (line : Nat) (k : Fin 8) (p : Ppu) : Ppu :=
  match p.sec[k.val]? with
  | some e => { p with slots := p.slots.set k.val (p.loadSlot cart line e) }
  | none => { p with slots := p.slots.set k.val { p.slots[k] with lo := 0, hi := 0 } }

/-- The slot fetched at cycle `c`: `k` where `c = 264 + 8k` (rule R432). -/
def slotDue (c : Nat) : Option (Fin 8) :=
  if h : 264 ≤ c ∧ c % 8 = 0 ∧ c ≤ 320 then some ⟨(c - 264) / 8, by omega⟩ else none

/-- The sprite steps of cycle `c` of render line `line` (rules R430 to R432). -/
def Ppu.sprites (cart : Cartridge) (line c : Nat) (p : Ppu) : Ppu :=
  if c = 257 then p.evaluateSprites line
  else
    match slotDue c with
    | none => p
    | some k =>
      let p1 := p.fetchSlot cart line k
      if c = 264 then { p1 with sprCount := p.sec.length, sprHas0 := p.secHas0 } else p1

/-! ### Pixel output -/

/-- A layer's pixel: its two colour bits, 0 when transparent, and its palette. -/
structure LayerPixel where
  color : BitVec 2
  pal   : BitVec 2
  deriving DecidableEq, Repr

/-- A sprite pixel, with its priority bit and whether it is OAM sprite 0's (rule R433). -/
structure SpritePixel where
  color  : BitVec 2
  pal    : BitVec 2
  behind : Bool
  zero   : Bool
  deriving DecidableEq, Repr

/-- The background pixel at column `x` (rule R429). -/
def Ppu.bgPixel (p : Ppu) (x : Nat) : LayerPixel :=
  if bit p.mask 3 && (decide (8 ≤ x) || bit p.mask 1) then
    let b := 15 - p.x.toNat
    ⟨BitVec.ofBool (p.bgHi.getLsbD b) ++ BitVec.ofBool (p.bgLo.getLsbD b),
     BitVec.ofBool (p.atHi.getLsbD b) ++ BitVec.ofBool (p.atLo.getLsbD b)⟩
  else ⟨0, 0⟩

/-- The two colour bits of a slot at column `x`, 0 outside its eight columns (rule R433). -/
def SpriteSlot.color (e : SpriteSlot) (x : Nat) : BitVec 2 :=
  if e.xpos.toNat ≤ x ∧ x < e.xpos.toNat + 8 then
    let b := 7 - (x - e.xpos.toNat)
    BitVec.ofBool (bit e.hi b) ++ BitVec.ofBool (bit e.lo b)
  else 0

/-- The first of the slots, the head being slot `k`, that is opaque at column `x`. -/
def firstOpaque (x : Nat) (has0 : Bool) : Nat → List SpriteSlot → Option SpritePixel
  | _, [] => none
  | k, e :: rest =>
    if e.color x ≠ 0 then some ⟨e.color x, e.attr.extractLsb' 0 2, bit e.attr 5, decide (k = 0) && has0⟩
    else firstOpaque x has0 (k + 1) rest

/-- The sprite pixel at column `x`: the lowest opaque slot wins (rule R433). -/
def Ppu.spritePixel (p : Ppu) (x : Nat) : SpritePixel :=
  if bit p.mask 4 && (decide (8 ≤ x) || bit p.mask 2) then
    (firstOpaque x p.sprHas0 0 (p.slots.toList.take p.sprCount)).getD ⟨0, 0, false, false⟩
  else ⟨0, 0, false, false⟩

/-- The palette address of the winning layer (rule R434). -/
def pixelAddr (bg : LayerPixel) (sp : SpritePixel) : BitVec 14 :=
  let bgAddr : BitVec 14 := 0x3F00 + 4 * bg.pal.setWidth 14 + bg.color.setWidth 14
  let spAddr : BitVec 14 := 0x3F10 + 4 * sp.pal.setWidth 14 + sp.color.setWidth 14
  if bg.color = 0 ∧ sp.color = 0 then 0x3F00
  else if bg.color = 0 then spAddr
  else if sp.color = 0 then bgAddr
  else if sp.behind then bgAddr else spAddr

/-- The colour of a pixel (rule R434): the palette cell, its low bits dropped in greyscale; the backdrop, unmasked, when
rendering is disabled (DEDUCED, assumption 14). The greyscale mask on the stored index follows rule R434 against
item SD16 of spec/93_implementation_defined.md, "colour emphasis and greyscale have no effect on the state of the
model", which spec/90_conflicts.md does not settle: DESIGN CHOICE, assumption 20. -/
def Ppu.pixelColor (p : Ppu) (bg : LayerPixel) (sp : SpritePixel) : BitVec 6 :=
  if p.rendering then
    let cell := p.pal.read (palIndex (pixelAddr bg sp))
    if bit p.mask 0 then cell &&& 0x30 else cell
  else p.pal.read 0

/-- Sprite-zero hit at column `x` (rule R436). -/
def Ppu.hitsSprite0 (p : Ppu) (x : Nat) (bg : LayerPixel) (sp : SpritePixel) : Bool :=
  sp.zero && decide (sp.color ≠ 0) && decide (bg.color ≠ 0) && decide (x ≠ 255) && bit p.mask 3 && bit p.mask 4

/-- The output of pixel `x` of line `line` (rules R435, R436). -/
def Ppu.outputPixel (line x : Nat) (p : Ppu) : Ppu :=
  let bg := p.bgPixel x
  let sp := p.spritePixel x
  { p with
    frame := p.frame.write (256 * line + x) (p.pixelColor bg sp)
    sprite0Hit := p.sprite0Hit || p.hitsSprite0 x bg sp }

/-! ### The tick -/

/-- Steps 2 to 4 of a tick at `(line, c)` (rule R421). -/
def Ppu.render (cart : Cartridge) (line c : Nat) (p : Ppu) : Ppu :=
  let p1 := if p.rendering && renderLine line then (p.background cart line c).sprites cart line c else p
  if line < 240 ∧ 1 ≤ c ∧ c ≤ 256 then p1.outputPixel line (c - 1) else p1

/-- Whether the NMI output is high at the end of a tick (rule R420). -/
def Ppu.nmiLevel (p : Ppu) : Bool := p.vblankDelayed && bit p.ctrl 7

/-- The NMI output line and the delayed VBlank, step 5 of a tick (rules R419, R420). -/
def Ppu.updateNmi (p : Ppu) : Ppu := { p with nmiOut := p.nmiLevel, vblankDelayed := p.vblank }

/-- The advance, step 6 of a tick (rule R402): the odd-frame skip after `(261, 339)` while rendering. -/
def Ppu.advance (p : Ppu) : Ppu :=
  if p.tick = 89340 ∧ p.oddFrame = true ∧ p.rendering = true then { p with tick := 0, oddFrame := !p.oddFrame }
  else if p.tick + 1 = 89342 then { p with tick := 0, oddFrame := !p.oddFrame }
  else { p with tick := p.tick + 1 }

/-- One picture-unit tick (rule R421). A rising edge of the NMI output sets the CPU's latch (rules R302, R420). -/
def ppuTick (s : State) : State :=
  let p := s.ppu.flagEvents.render s.cart s.ppu.scanline s.ppu.cycle
  let rising := p.nmiLevel && !p.nmiOut
  { s with ppu := p.updateNmi.advance, nmiPending := s.nmiPending || rising }

end Sys2Proof.Machine
end

