-- ==== Sys2Proof/Machine/Tick.lean ====
section
/-! DEFINITION. The stepping contract: instruction fetch (rules R22, R68), one CPU tick (rule R502), and one coordinator
step, "CPU tick, then three PPU ticks" (rule R503). -/

namespace Sys2Proof.Machine

/-- The opcode byte at PC and as many operand bytes as its length asks for, in order, each an ordinary read
(rules R22, R64, R68). -/
def fetch (s : State) : Instr × State :=
  let op := memRead s.pc s
  match (opcodeRow op.1).length with
  | 1 => (decodeOp op.1 0 0, op.2)
  | 2 =>
    let b1 := memRead (s.pc + 1) op.2
    (decodeOp op.1 b1.1 0, b1.2)
  | _ =>
    let b1 := memRead (s.pc + 1) op.2
    let b2 := memRead (s.pc + 2) b1.2
    (decodeOp op.1 b1.1 b2.1, b2.2)

/-- What a boundary services (rules R30, R306). -/
inductive Service where
  | reset | halted | nmi | irq | instruction
  deriving DecidableEq, Repr

/-- The priority at a boundary, highest first (rule R306). -/
def State.service (s : State) : Service :=
  if s.resetPending then .reset
  else if s.halted then .halted
  else if s.nmiPending then .nmi
  else if s.irqLine && !s.flags.i then .irq
  else .instruction

/-- An instruction boundary: exactly one service, its whole effect and its cost (rules R306, R502). -/
def boundary (s : State) : Result :=
  match s.service with
  | .reset => .next (resetSequence s)
  | .halted => .next (haltedBoundary s)
  | .nmi => .next (nmiEntry s)
  | .irq => .next (irqEntry s)
  | .instruction => exec (fetch s).1 (fetch s).2

/-- The end of a CPU tick: one cycle of the cost drained, one cycle counted (rules R28, R29, R502). -/
def drain (s : State) : State := { s with remaining := s.remaining - 1, cycles := s.cycles + 1 }

/-- `CpuTick()` of a state without the refusal mark (rule R502). A tick that sets the mark returns at once. -/
def cpuTick (s : State) : Result :=
  if s.remaining = 0 then
    match boundary s with
    | .next t => .next (if t.refused then t else drain t)
    | .fault f => .fault f
    | .refused r => .refused r
  else
    .next (drain s)

/-- The three picture-unit ticks of a step (rule R503). -/
def ppuTicks (s : State) : State := ppuTick (ppuTick (ppuTick s))

/-- `Step()` (rule R503). A marked state takes no further step (rule R32, assumption 8); the step that sets the mark
still ends in its three picture-unit ticks. -/
def coordinatorStep (s : State) : Result :=
  if s.refused then .refused .refusedState
  else
    match cpuTick s with
    | .next t => .next (ppuTicks t)
    | .fault f => .fault f
    | .refused r => .refused r

/-- What the environment sets between two coordinator steps (rules R303, R304, R503). -/
structure HostInput where
  irqLine : Bool
  reset   : Bool
  deriving DecidableEq, Repr

/-- The environment's inputs for the next step. -/
def State.applyInput (s : State) (i : HostInput) : State :=
  let s1 := s.setIrqLine i.irqLine
  if i.reset then s1.requestReset else s1

/-- A run with one input for each step, the length of the run being the host's choice (rule R512). -/
def runInputs : List HostInput → State → Result
  | [], s => .next s
  | i :: rest, s =>
    match coordinatorStep (s.applyInput i) with
    | .next t => runInputs rest t
    | .fault f => .fault f
    | .refused r => .refused r

end Sys2Proof.Machine
end

