-- ==== Sys2Proof/Machine/Step.lean ====
section
/-! DEFINITION. `step`, one coordinator step (rule R503), and the placing of an instruction where the next step
fetches it. -/

namespace Sys2Proof.Machine

/-- One step of the machine: the machine's unit of time (rule R503). -/
def step (s : State) : Host.Outcome State Fault Refusal := coordinatorStep s

/-- Whether a byte can be put at a CPU address: RAM, PRG or work RAM. -/
def State.canPlace (s : State) (a : Addr) : Bool :=
  match cpuRegion a with
  | .ram _ => true
  | .cartridge =>
    match s.cart.region a with
    | .prg _ | .wram _ => true
    | .undecoded => false
  | _ => false

/-- A byte put at a CPU address from outside the machine: the cell itself, with no write side effect. -/
def State.place (s : State) (a : Addr) (v : Byte) : State :=
  match cpuRegion a with
  | .ram k => s.setRam (s.ram.write k v)
  | .cartridge =>
    match s.cart.region a with
    | .prg k => s.setCart { s.cart with prg := s.cart.prg.write k v }
    | .wram k => s.setCart { s.cart with wram := s.cart.wram.write k v }
    | .undecoded => s
  | _ => s

/-- Where `withFetchWord` puts an instruction: at PC, or at `$0000` where PC or the two bytes after it can hold
none (a device register or an undecoded address). -/
def State.fetchAddr (s : State) : Addr :=
  if s.canPlace s.pc && s.canPlace (s.pc + 1) && s.canPlace (s.pc + 2) then s.pc else 0

/-- `s` with the instruction whose bits are `w` placed where the next step fetches, and the next step made an
instruction boundary with nothing to service: no cost draining, no Reset, NMI or IRQ pending, not halted, not
refused (rule R306). It stands for the load of a program from outside (assumption 4). -/
def State.withFetchWord (s : State) (nbits w : Nat) : State :=
  let v := w % 2 ^ nbits
  let at0 := s.fetchAddr
  let s1 := { s with
    pc := at0, remaining := 0, resetPending := false, halted := false, nmiPending := false, irqLine := false
    refused := false }
  ((s1.place at0 (BitVec.ofNat 8 v)).place (at0 + 1) (BitVec.ofNat 8 (v / 256))).place (at0 + 2)
    (BitVec.ofNat 8 (v / 65536))

end Sys2Proof.Machine
end

