-- ==== Sys2Proof/Safety.lean ====
section
/-! DEFINITION. The terms claims use: the invariant `State.wf` of every state a step can reach, the memory cells of the
machine and which of them a CPU write stores to, the classes of instructions, the values the statements compute
without the model's own flag and cost operations, and what a safe run is. -/

namespace Sys2Proof.Machine

/-! ### The invariant -/

/-- The page counts a cartridge of each variant can have (rules R75, R77, R91, R92). -/
def Cartridge.countsOk (c : Cartridge) : Bool :=
  match c.mapper with
  | .variant0 => decide (1 ≤ c.prgPages) && decide (c.prgPages ≤ 2) && decide (c.chrPages ≤ 1)
  | .serial => decide (1 ≤ c.prgPages) && decide (c.prgPages ≤ 16) && decide (c.chrPages ≤ 16)

/-- The size of the CHR storage in bytes: 8 KiB pages, or 8 KiB of CHR RAM (rules R77, R92). -/
def Cartridge.chrSize (c : Cartridge) : Nat := if c.chrPages = 0 then 8192 else 8192 * c.chrPages

/-- A cartridge a mapper constructor can have built, its storages canonical and its shift register not full
(rule R79). -/
def Cartridge.wf (c : Cartridge) : Bool :=
  c.countsOk && c.prg.wf (16384 * c.prgPages) && c.chr.wf c.chrSize && c.wram.wf 8192 && decide (c.shiftCount < 5)

/-- The bounds rule R400 gives the picture unit's state, its storages canonical. -/
def Ppu.wf (p : Ppu) : Bool :=
  decide (p.tick < 89342) && p.oam.wf 256 && p.ntRam.wf 2048 && p.pal.wf 32 && p.frame.wf 61440 &&
    decide (p.sec.length ≤ 8) && decide (p.sprCount ≤ 8)

/-- The invariant of the machine: every storage in its canonical form and in its size, every counter in its range. -/
def State.wf (s : State) : Bool := s.ram.wf 2048 && s.cart.wf && s.ppu.wf

/-- `RAM_INIT` contents in canonical form. -/
def RamInit.wf (r : RamInit) : Bool := r.ram.wf 2048 && r.oam.wf 256 && r.ntRam.wf 2048 && r.pal.wf 32

/-! ### Memory cells -/

/-- One cell of one of the machine's storages. -/
inductive Cell where
  | ram (k : Nat)
  | prg (k : Nat)
  | chr (k : Nat)
  | wram (k : Nat)
  | oam (k : Nat)
  | nametable (k : Nat)
  | palette (k : Nat)
  | frame (k : Nat)
  deriving DecidableEq, Repr

/-- What a cell holds. -/
def State.cell (s : State) : Cell → Byte
  | .ram k => s.ram.read k
  | .prg k => s.cart.prg.read k
  | .chr k => s.cart.chr.read k
  | .wram k => s.cart.wram.read k
  | .oam k => s.ppu.oam.read k
  | .nametable k => s.ppu.ntRam.read k
  | .palette k => (s.ppu.pal.read k).setWidth 8
  | .frame k => (s.ppu.frame.read k).setWidth 8

/-- Whether a picture-unit write to `a` stores to cell `c` (rule R414). -/
def ppuStores (s : State) (a : BitVec 14) (c : Cell) : Bool :=
  match ppuRegion s.cart.mirroring a with
  | .pattern => decide (s.cart.chrPages = 0 ∧ c = .chr (s.cart.chrOffset a))
  | .nametable k => decide (c = .nametable k)
  | .palette k => decide (c = .palette k)

/-- Whether cell `c` is one of OAM's. -/
def Cell.isOam : Cell → Bool
  | .oam _ => true
  | _ => false

/-- Whether a CPU write to `a` stores to cell `c`: RAM, work RAM, OAM through `$2004`, a picture-unit cell through
`$2007`, and all of OAM through `$4014` (rules R55 to R60, R65, R76, R93). -/
def cpuStores (s : State) (a : Addr) (c : Cell) : Bool :=
  match cpuRegion a with
  | .ram k => decide (c = .ram k)
  | .ppuReg r =>
    if r = 4 then decide (c = .oam s.ppu.oamAddr.toNat)
    else if r = 7 then ppuStores s (vramAddr s.ppu.v) c
    else false
  | .oamDma => c.isOam
  | .external | .undecoded => false
  | .cartridge =>
    match s.cart.region a with
    | .wram k => decide (c = .wram k)
    | .prg _ | .undecoded => false

/-! ### Classes of instructions (rule R135) -/

/-- The mnemonics that read one operand byte. -/
def readKinds : List Mnemonic :=
  [.lda, .ldx, .ldy, .adc, .sbc, .and, .ora, .eor, .bit, .cmp, .cpx, .cpy, .nop, .lax, .anc, .alr, .arr, .axs]

/-- The mnemonics that write one byte they do not read. -/
def writeKinds : List Mnemonic := [.sta, .stx, .sty, .sax]

/-- The mnemonics that read a place, then write it. -/
def rmwKinds : List Mnemonic := [.asl, .lsr, .rol, .ror, .inc, .dec, .slo, .rla, .sre, .rra, .dcp, .isb]

/-! ### Values a statement computes for itself -/

/-- The rows of mnemonic `k` in the opcode table are exactly `rows`: each byte listed has that mnemonic and mode, and
no other byte has the mnemonic (rules R33, R104). -/
def HasRows (k : Mnemonic) (rows : List (Byte × Mode)) : Prop :=
  (∀ r ∈ rows, (opcodeRow r.1).kind = k ∧ (opcodeRow r.1).mode = r.2) ∧
    ∀ op : Byte, (opcodeRow op).kind = k → ∃ r ∈ rows, r.1 = op

/-- The state with PC at the next instruction (rule R22). -/
def atNext (i : Instr) (s : State) : State := { s with pc := s.pc + BitVec.ofNat 16 i.row.length }

/-- The base cost of an instruction and the cycle a page crossing adds where its row is marked (rule R504, (a) and (b)). -/
def costOf (i : Instr) (crossed : Bool) : Nat :=
  i.row.cycles.getD 1 + (if i.row.pageCross = true ∧ crossed = true then 1 else 0)

/-- The flags with N and Z from a value (rule R8). -/
def nzOf (f : Flags) (v : Byte) : Flags := { f with n := v.getLsbD 7, z := decide (v.toNat = 0) }

/-- The stack cell of a stack-pointer value, as an offset in RAM (rule R62). -/
def stackCell (sp : Byte) : Nat := 0x100 + sp.toNat

/-- The stall a write to `ea` adds to a cost: 0 unless `ea` is `$4014` (rules R88, R504). -/
def stallOf (s : State) (cost : Nat) (ea : Addr) : Nat :=
  if ea.toNat = 0x4014 then (if (s.cycles + cost) % 2 = 0 then 513 else 514) else 0

/-- The 9-bit sum of the shared adder (rule R161). -/
def sum9 (a b : Byte) (c : Bool) : Nat := a.toNat + b.toNat + c.toNat

/-- Signed overflow as rule R161 computes it: `(~(a xor b) & (a xor r))[7]`. -/
def overflowBit (a b r : Byte) : Bool := (~~~(a ^^^ b) &&& (a ^^^ r)).getLsbD 7

/-- `A` and the flags after `A <- AddWithCarry(A, b, C)` (rule R161). -/
def afterAdd (s : State) (f : Flags) (b : Byte) : State :=
  let r : Byte := BitVec.ofNat 8 (sum9 s.a b f.c)
  { s with
    a := r
    flags := { nzOf f r with c := decide (256 ≤ sum9 s.a b f.c), v := overflowBit s.a b r } }

/-- The flags after `Compare(reg, m)` (rule R162). -/
def compared (f : Flags) (reg m : Byte) : Flags :=
  { f with c := decide (m.toNat ≤ reg.toNat), z := decide (reg = m), n := (reg - m).getLsbD 7 }

/-- The unstable opcodes of spec/46_unofficial.md section 6. -/
def unstableOpcodes : List Byte := [0x8B, 0x93, 0x9B, 0x9C, 0x9E, 0x9F, 0xAB, 0xBB]

/-! The pixel of the tick at cycle `c`, column `c - 1`, from the picture unit before the tick. -/

/-- The background's colour bits, 0 where transparent, and its palette. The tick at cycle 1 does not shift the shifters
and every later one shifts them one place first (rules R422, R429). -/
def bgPixelAt (p : Ppu) (c : Nat) : Nat × Nat :=
  let b := 15 - p.x.toNat - (if c = 1 then 0 else 1)
  if p.mask.getLsbD 3 = true ∧ (9 ≤ c ∨ p.mask.getLsbD 1 = true) then
    (2 * (p.bgHi.getLsbD b).toNat + (p.bgLo.getLsbD b).toNat, 2 * (p.atHi.getLsbD b).toNat + (p.atLo.getLsbD b).toNat)
  else (0, 0)

/-- The colour bits of a slot at column `x`, 0 outside its eight columns (rule R433). -/
def slotColorAt (e : SpriteSlot) (x : Nat) : Nat :=
  let b := 7 - (x - e.xpos.toNat)
  if e.xpos.toNat ≤ x ∧ x < e.xpos.toNat + 8 then 2 * (e.hi.getLsbD b).toNat + (e.lo.getLsbD b).toNat else 0

/-- The lowest of the filled slots that is opaque there, with its number (rule R433). -/
def frontSlotAt (p : Ppu) (c : Nat) : Option (SpriteSlot × Nat) :=
  if p.mask.getLsbD 4 = true ∧ (9 ≤ c ∨ p.mask.getLsbD 2 = true) then
    ((p.slots.toList.take p.sprCount).zipIdx).find? fun e => decide (slotColorAt e.1 (c - 1) ≠ 0)
  else none

/-- The colour: the palette cell of the layer that wins, its low four bits cleared in greyscale (rule R434). -/
def pixelAt (p : Ppu) (c : Nat) : BitVec 6 :=
  let bg := bgPixelAt p c
  let bgCell := if bg.1 = 0 then 0 else 4 * bg.2 + bg.1
  let cell :=
    match frontSlotAt p c with
    | none => bgCell
    | some e =>
      if bg.1 = 0 ∨ e.1.attr.getLsbD 5 = false then 16 + 4 * (e.1.attr.toNat % 4) + slotColorAt e.1 (c - 1) else bgCell
  let color := p.pal.read cell
  if p.mask.getLsbD 0 = true then BitVec.ofNat 6 (color.toNat / 16 * 16) else color

/-- Sprite-zero hit: the first opaque slot is slot 0, it holds OAM sprite 0, the background is opaque too, both layers
are shown and the column is not 255, whichever layer wins (rule R436). -/
def hitAt (p : Ppu) (c : Nat) : Bool :=
  match frontSlotAt p c with
  | none => false
  | some e =>
    decide (e.2 = 0) && p.sprHas0 && decide ((bgPixelAt p c).1 ≠ 0) && decide (c ≠ 256) && p.mask.getLsbD 3 &&
      p.mask.getLsbD 4

/-! ### Running -/

/-- A state at an instruction boundary that will fetch: nothing to service, no mark (rules R30, R306). -/
def State.fetches (s : State) : Bool := !s.refused && decide (s.remaining = 0) && decide (s.service = .instruction)

/-- The bytes at `a` and up, each an ordinary read, with the state after them (rules R64, R68). -/
def readBytes : Nat → Addr → State → List Byte × State
  | 0, _, s => ([], s)
  | n + 1, a, s =>
    let b := memRead a s
    let r := readBytes n (a + 1) b.2
    (b.1 :: r.1, r.2)

/-- `n` steps. -/
def stepN : Nat → State → Result
  | 0, s => .next s
  | n + 1, s =>
    match step s with
    | .next t => stepN n t
    | .fault f => .fault f
    | .refused r => .refused r

/-- A run is safe when it never meets an unstable opcode under `UNSTABLE_OPCODES = refuse`: the only way a run of this
machine ends without a next state (rules R9, R32, R240). -/
def safeRun (inputs : List HostInput) (s : State) : Bool :=
  match runInputs inputs s with
  | .next t => !t.refused
  | .fault _ | .refused _ => false

end Sys2Proof.Machine
end

