-- ==== Sys2Proof/Certificates/Slice0/Obligations.lean ====
section
/-! DEFINITION. The statements for the provers. Each says what the machine does in terms of register fields, memory
cells and 8-bit values; the state an instruction runs in has PC at its opcode, and `exec` answers the state with
PC moved on and the instruction's cost in `remaining`. -/

section Statements

open Sys2Proof Sys2Proof.Machine

/-! ### Encoding -/

/-- Decoding the encoding of any well-formed instruction gives it back, with the bytes after it left over. -/
def Obligations.DecodeOfEncode : Prop :=
  ∀ (i : Instr) (rest : List Byte), i.wellFormed = true → decode (encode i ++ rest) = .ok i rest

/-- Every decoded instruction is well formed, and its encoding is exactly the bytes it was decoded from. -/
def Obligations.EncodeOfDecode : Prop :=
  ∀ (bytes : List Byte) (i : Instr) (rest : List Byte),
    decode bytes = .ok i rest → i.wellFormed = true ∧ encode i ++ rest = bytes

/-- Rule R103: decoding is total. Every opcode byte has one row of the 256-entry table and, with two bytes after it,
decodes to a well-formed instruction with that opcode byte. -/
def Obligations.EveryOpcodeByteDecodes : Prop :=
  opcodeTable.length = 256 ∧
  ∀ op b1 b2 : Byte,
    opcodeTable[op.toNat]? = some (opcodeRow op) ∧
    ∃ i rest, decode [op, b1, b2] = .ok i rest ∧ i.opcode = op ∧ i.wellFormed = true

/-- Rule R102: what an instruction's operand bytes mean, by the mode of its opcode's row. The immediate is the byte
itself; a zero-page form takes the byte as its address in page 0 or as the base of an index addition; a branch
takes it as a signed displacement; a three-byte form takes `{byte2, byte1}`. -/
def Obligations.OperandAssembly : Prop :=
  (∀ op b1 b2 : Byte,
    let i := decodeOp op b1 b2
    let w : Addr := BitVec.ofNat 16 (256 * b2.toNat + b1.toNat)
    i.operand =
      match (opcodeRow op).mode with
      | .implied => .implied
      | .accumulator => .accumulator
      | .immediate => .immediate b1
      | .zeroPage => .memory (.zeroPage b1)
      | .zeroPageX => .memory (.zeroPageX b1)
      | .zeroPageY => .memory (.zeroPageY b1)
      | .relative => .relative b1
      | .absolute => .memory (.absolute w)
      | .absoluteX => .memory (.absoluteX w)
      | .absoluteY => .memory (.absoluteY w)
      | .indirect => .indirect w
      | .indexedIndirect => .memory (.indexedIndirect b1)
      | .indirectIndexed => .memory (.indirectIndexed b1)) ∧
  (∀ (m : Byte) (s : State), load (.immediate m) s = ⟨m, false, s⟩) ∧
  (∀ (a : Byte) (s : State), (resolve (.zeroPage a) s).ea.toNat = a.toNat) ∧
  (∀ (a : Byte) (s : State), (resolve (.zeroPageX a) s).ea.toNat = (a.toNat + s.x.toNat) % 256) ∧
  (∀ (a : Byte) (s : State), (resolve (.zeroPageY a) s).ea.toNat = (a.toNat + s.y.toNat) % 256) ∧
  (∀ (next : Addr) (d : Byte), ((relativeTarget next d).toNat : Int) = ((next.toNat : Int) + d.toInt) % 65536)

/-- Words written out from the encoding column of the opcode table decode to the instruction they stand for, one for
each family. -/
def Obligations.SampleWordsDecode : Prop :=
  decode [0xA9, 0x42] = .ok (.ldaImm 0x42) [] ∧
  decode [0x9D, 0x34, 0x12] = .ok (.staAbsX 0x1234) [] ∧
  decode [0x71, 0x40] = .ok (.adcIndY 0x40) [] ∧
  decode [0x24, 0x10] = .ok (.bitZp 0x10) [] ∧
  decode [0x6A] = .ok .rorAcc [] ∧
  decode [0x6C, 0xFF, 0x01] = .ok (.jmpInd 0x01FF) [] ∧
  decode [0xD0, 0xFE] = .ok (.bne 0xFE) [] ∧
  decode [0x28] = .ok .plp [] ∧
  decode [0xC3, 0x20] = .ok (.dcpIndX 0x20) [] ∧
  decode [0x9E, 0x00, 0x03] = .ok (.shxAbsY 0x0300) [] ∧
  decode [0x92] = .ok (.jam 0x92) [] ∧
  decode [0xAD, 0x34] = .rejected (.truncated 0xAD)

/-- The timing columns of the opcode table (rule R104) and the length of each mode (rule R101): the base cycle count of
every opcode byte (0 here where the table has none), the opcodes marked "+1 on page cross", and the count of
opcodes in each class. -/
def Obligations.OpcodeTableColumns : Prop :=
  opcodeTable.map (fun r => r.cycles.getD 0) =
      [7, 6, 0, 8, 3, 3, 5, 5, 3, 2, 2, 2, 4, 4, 6, 6] ++
      [2, 5, 0, 8, 4, 4, 6, 6, 2, 4, 2, 7, 4, 4, 7, 7] ++
      [6, 6, 0, 8, 3, 3, 5, 5, 4, 2, 2, 2, 4, 4, 6, 6] ++
      [2, 5, 0, 8, 4, 4, 6, 6, 2, 4, 2, 7, 4, 4, 7, 7] ++
      [6, 6, 0, 8, 3, 3, 5, 5, 3, 2, 2, 2, 3, 4, 6, 6] ++
      [2, 5, 0, 8, 4, 4, 6, 6, 2, 4, 2, 7, 4, 4, 7, 7] ++
      [6, 6, 0, 8, 3, 3, 5, 5, 4, 2, 2, 2, 5, 4, 6, 6] ++
      [2, 5, 0, 8, 4, 4, 6, 6, 2, 4, 2, 7, 4, 4, 7, 7] ++
      [2, 6, 2, 6, 3, 3, 3, 3, 2, 2, 2, 0, 4, 4, 4, 4] ++
      [2, 6, 0, 0, 4, 4, 4, 4, 2, 5, 2, 0, 0, 5, 0, 0] ++
      [2, 6, 2, 6, 3, 3, 3, 3, 2, 2, 2, 0, 4, 4, 4, 4] ++
      [2, 5, 0, 5, 4, 4, 4, 4, 2, 4, 2, 0, 4, 4, 4, 4] ++
      [2, 6, 2, 8, 3, 3, 5, 5, 2, 2, 2, 2, 4, 4, 6, 6] ++
      [2, 5, 0, 8, 4, 4, 6, 6, 2, 4, 2, 7, 4, 4, 7, 7] ++
      [2, 6, 2, 8, 3, 3, 5, 5, 2, 2, 2, 2, 4, 4, 6, 6] ++
      [2, 5, 0, 8, 4, 4, 6, 6, 2, 4, 2, 7, 4, 4, 7, 7] ∧
  (∀ op : Byte, (opcodeRow op).pageCross = true ↔ op ∈ (
      [0x11, 0x19, 0x1C, 0x1D, 0x31, 0x39, 0x3C, 0x3D, 0x51, 0x59, 0x5C, 0x5D, 0x71, 0x79, 0x7C, 0x7D, 0xB1,
      0xB3, 0xB9, 0xBC, 0xBD, 0xBE, 0xBF, 0xD1, 0xD9, 0xDC, 0xDD, 0xF1, 0xF9, 0xFC, 0xFD] : List Byte)) ∧
  (∀ op : Byte, (opcodeRow op).length =
    if (opcodeRow op).mode ∈ [Mode.implied, .accumulator] then 1
    else if (opcodeRow op).mode ∈ [Mode.absolute, .absoluteX, .absoluteY, .indirect] then 3 else 2) ∧
  (∀ i : Instr, i.wellFormed = true → (encode i).length = i.row.length) ∧
  opcodeTable.countP (fun r => r.cls = .official) = 151 ∧
  opcodeTable.countP (fun r => r.cls = .unofficial) = 85 ∧
  opcodeTable.countP (fun r => r.cls = .halt) = 12 ∧
  opcodeTable.countP (fun r => r.cls = .refused) = 8

/-! ### Running -/

/-- A step of a state that is at an instruction boundary with nothing to service runs the instruction the bytes at PC
decode to, in the state those reads leave (reads of RAM and cartridge space leave it as it was), counts one cycle of
its cost, and then runs three picture-unit ticks. A tick that sets the refusal mark counts no cycle. -/
def Obligations.StepRunsDecodedInstruction : Prop :=
  (∀ (s : State) (i : Instr),
    s.refused = false → s.remaining = 0 → s.resetPending = false → s.halted = false → s.nmiPending = false →
    (s.irqLine = true → s.flags.i = true) →
    i.wellFormed = true → (readBytes i.row.length s.pc s).1 = encode i →
    ∃ t, exec i (readBytes i.row.length s.pc s).2 = .next t ∧
      step s =
        .next (ppuTick (ppuTick (ppuTick (if t.refused = true then t
          else { t with remaining := t.remaining - 1, cycles := t.cycles + 1 }))))) ∧
  (∀ (s : State) (a : Addr), a.toNat < 0x2000 ∨ 0x4020 ≤ a.toNat → (memRead a s).2 = s)

/-- While cost remains, a step counts one cycle, drains one cycle of cost and runs three picture-unit ticks, and does
nothing else (rules R29, R502, R503). -/
def Obligations.StepDrainsCost : Prop :=
  ∀ s : State, s.refused = false → 0 < s.remaining →
    step s = .next (ppuTick (ppuTick (ppuTick { s with remaining := s.remaining - 1, cycles := s.cycles + 1 })))

/-- The priority at a boundary (rule R306): Reset, then the halted tick, then NMI, then an unmasked IRQ. Each is one
step with its whole effect, one cycle of its cost counted, and three picture-unit ticks. IRQ is masked by I; NMI is
not. -/
def Obligations.BoundaryPriority : Prop :=
  ∀ s : State, s.refused = false → s.remaining = 0 →
    let run := fun t : State =>
      (.next (ppuTick (ppuTick (ppuTick { t with remaining := t.remaining - 1, cycles := t.cycles + 1 }))) : Result)
    (s.resetPending = true → step s = run (resetSequence s)) ∧
    (s.resetPending = false → s.halted = true → step s = run { s with remaining := 1 }) ∧
    (s.resetPending = false → s.halted = false → s.nmiPending = true → step s = run (nmiEntry s)) ∧
    (s.resetPending = false → s.halted = false → s.nmiPending = false → s.irqLine = true → s.flags.i = false →
      step s = run (irqEntry s)) ∧
    (s.resetPending = false → s.halted = false → s.nmiPending = false →
      (s.service = .irq ↔ s.irqLine = true ∧ s.flags.i = false))

/-- The Reset sequence (rule R501): SP falls by 3 with no memory written, I is set, PC is read from `$FFFC`, the
latches and the halted state are cleared, the cost is 7, and nothing else changes. -/
def Obligations.ResetSequenceResult : Prop :=
  ∀ s : State,
    resetSequence s = { s with
      sp := s.sp - 3
      flags := { s.flags with i := true }
      pc := BitVec.ofNat 16 (256 * (s.cart.getCpuAt 0xFFFD).toNat + (s.cart.getCpuAt 0xFFFC).toNat)
      halted := false
      nmiPending := false
      resetPending := false
      remaining := 7 }

/-- From power-on, whatever the cartridge and the contents of memory, seven steps run the Reset sequence: the first
instruction boundary has A = X = Y = 0, SP = `$FD`, the status byte `$24`, `cycles` = 7, PC at the reset vector, and
the picture unit 21 ticks on (rules R36, R500, R501). -/
def Obligations.PowerOnReachesResetVector : Prop :=
  ∀ (cart : Cartridge) (init : RamInit) (params : Params),
    ∃ t, stepN 7 (State.powerOn cart init params) = .next t ∧
      t.a = 0 ∧ t.x = 0 ∧ t.y = 0 ∧ t.sp = 0xFD ∧ t.flags.pack false = 0x24 ∧ t.cycles = 7 ∧ t.remaining = 0 ∧
      t.halted = false ∧ t.nmiPending = false ∧ t.resetPending = false ∧ t.refused = false ∧ t.ram = init.ram ∧
      t.cart = cart.powerOn ∧ t.ppu.tick = 21 ∧ t.ppu.oam = init.oam ∧ t.ppu.ntRam = init.ntRam ∧ t.ppu.pal = init.pal ∧
      t.pc.toNat = 256 * (cart.powerOn.getCpuAt 0xFFFD).toNat + (cart.powerOn.getCpuAt 0xFFFC).toNat

/-- NMI and IRQ entry (rule R307): PC high, PC low and the status byte with B = 0 and U = 1 are pushed, I is set, PC is
read from the vector, the cost is 7; NMI entry clears its latch. Nothing else changes. -/
def Obligations.InterruptEntryResult : Prop :=
  ∀ s : State,
    let status : Byte := BitVec.ofNat 8 (128 * s.flags.n.toNat + 64 * s.flags.v.toNat + 32 + 8 * s.flags.d.toNat +
      4 * s.flags.i.toNat + 2 * s.flags.z.toNat + s.flags.c.toNat)
    let pushed := ((s.ram.write (stackCell s.sp) (BitVec.ofNat 8 (s.pc.toNat / 256))).write (stackCell (s.sp - 1))
      (BitVec.ofNat 8 s.pc.toNat)).write (stackCell (s.sp - 2)) status
    let entered : State := { s with ram := pushed, sp := s.sp - 3, flags := { s.flags with i := true }, remaining := 7 }
    nmiEntry s = { entered with
      nmiPending := false
      pc := BitVec.ofNat 16 (256 * (s.cart.getCpuAt 0xFFFB).toNat + (s.cart.getCpuAt 0xFFFA).toNat) } ∧
    irqEntry s = { entered with
      pc := BitVec.ofNat 16 (256 * (s.cart.getCpuAt 0xFFFF).toNat + (s.cart.getCpuAt 0xFFFE).toNat) }

/-- BRK (rules R213, R308): it saves the address of BRK + 2 and the status byte with B = 1 and U = 1, sets I, clears no
other flag, and continues at the vector `$FFFE`, whatever I was; cost 7. -/
def Obligations.BrkResult : Prop :=
  HasRows .brk [(0x00, .implied)] ∧
  ∀ s : State,
    let ret := s.pc.toNat + 2
    let status : Byte := BitVec.ofNat 8 (128 * s.flags.n.toNat + 64 * s.flags.v.toNat + 32 + 16 + 8 * s.flags.d.toNat +
      4 * s.flags.i.toNat + 2 * s.flags.z.toNat + s.flags.c.toNat)
    exec .brk s = .next { s with
      ram := ((s.ram.write (stackCell s.sp) (BitVec.ofNat 8 (ret / 256))).write (stackCell (s.sp - 1))
        (BitVec.ofNat 8 ret)).write (stackCell (s.sp - 2)) status
      sp := s.sp - 3
      flags := { s.flags with i := true }
      pc := BitVec.ofNat 16 (256 * (s.cart.getCpuAt 0xFFFF).toNat + (s.cart.getCpuAt 0xFFFE).toNat)
      remaining := 7 }

/-- RTI (rules R214, R311): all six flags from the pulled byte, B and U ignored, then PC low and high with no 1 added;
cost 6. -/
def Obligations.RtiResult : Prop :=
  HasRows .rti [(0x40, .implied)] ∧
  ∀ s : State,
    let p := s.ram.read (stackCell (s.sp + 1))
    exec .rti s = .next { s with
      flags := ⟨p.getLsbD 7, p.getLsbD 6, p.getLsbD 3, p.getLsbD 2, p.getLsbD 1, p.getLsbD 0⟩
      pc := BitVec.ofNat 16
        (256 * (s.ram.read (stackCell (s.sp + 3))).toNat + (s.ram.read (stackCell (s.sp + 2))).toNat)
      sp := s.sp + 3
      remaining := 6 }

/-- RTI undoes an interrupt entry: run in the state NMI entry, IRQ entry or BRK left, it restores the flags, the stack
pointer and PC of the interrupted program (rule R311). BRK's saved address is the one after its padding byte. -/
def Obligations.RtiUndoesEntry : Prop :=
  ∀ s : State, s.wf = true →
    (∃ t, exec .rti (nmiEntry s) = .next t ∧ t.pc = s.pc ∧ t.sp = s.sp ∧ t.flags = s.flags) ∧
    (∃ t, exec .rti (irqEntry s) = .next t ∧ t.pc = s.pc ∧ t.sp = s.sp ∧ t.flags = s.flags) ∧
    (∃ b t, exec .brk s = .next b ∧ exec .rti b = .next t ∧ t.pc = s.pc + 2 ∧ t.sp = s.sp ∧ t.flags = s.flags)

/-- JSR and RTS (rules R211, R212): JSR pushes the address of its own last byte, high byte first, and jumps; RTS pulls
PC and adds one. Cost 6 each. -/
def Obligations.CallAndReturnResult : Prop :=
  HasRows .jsr [(0x20, .absolute)] ∧ HasRows .rts [(0x60, .implied)] ∧
  ∀ (w : Addr) (s : State),
    exec (.jsrAbs w) s = .next { s with
      ram := (s.ram.write (stackCell s.sp) (BitVec.ofNat 8 ((s.pc + 2).toNat / 256))).write (stackCell (s.sp - 1))
        (BitVec.ofNat 8 (s.pc + 2).toNat)
      sp := s.sp - 2
      pc := w
      remaining := 6 } ∧
    exec .rts s = .next { s with
      pc := BitVec.ofNat 16
        (256 * (s.ram.read (stackCell (s.sp + 2))).toNat + (s.ram.read (stackCell (s.sp + 1))).toNat + 1)
      sp := s.sp + 2
      remaining := 6 }

/-- A subroutine that leaves the stack balanced returns to the instruction after the JSR. -/
def Obligations.RtsReturnsPastJsr : Prop :=
  ∀ (w : Addr) (s : State), s.wf = true →
    ∃ t u, exec (.jsrAbs w) s = .next t ∧ exec .rts t = .next u ∧ u.pc = s.pc + 3 ∧ u.sp = s.sp ∧
      u.flags = s.flags ∧ u.a = s.a ∧ u.x = s.x ∧ u.y = s.y

/-- A JAM opcode halts the core with PC at the byte after it, at a cost of 1 (rule R257). A halted machine that no
Reset is pending for stays as it is but for the cycle counter and the picture unit's ticks (rules R31, R513); every
step out of the halted state serviced a Reset at a boundary. -/
def Obligations.JamHaltsUntilReset : Prop :=
  HasRows .jam [(0x02, .implied), (0x12, .implied), (0x22, .implied), (0x32, .implied), (0x42, .implied),
      (0x52, .implied), (0x62, .implied), (0x72, .implied), (0x92, .implied), (0xB2, .implied), (0xD2, .implied),
      (0xF2, .implied)] ∧
  (∀ (op : Byte) (s : State), (Instr.jam op).wellFormed = true →
    exec (.jam op) s = .next { s with halted := true, pc := s.pc + 1, remaining := 1 }) ∧
  (∀ s : State, s.refused = false → s.halted = true → s.resetPending = false →
    step s = .next (ppuTick (ppuTick (ppuTick { s with remaining := s.remaining - 1, cycles := s.cycles + 1 })))) ∧
  (∀ s t : State, s.halted = true → step s = .next t → t.halted = false → s.resetPending = true ∧ s.remaining = 0)

/-- Every step of a state without the refusal mark has a next state (rules R9, R300); a marked state takes no step; and
a mark appears only when an unstable opcode runs under `UNSTABLE_OPCODES = refuse`. Two clauses are the model's choice:
that the step of a marked state is refused is its reading of rule R32, where rule R503 read alone would let the picture
unit tick on (log entry 8); and that the unstable opcodes run under `UNSTABLE_OPCODES = silicon`, so that no step sets
the mark there, is log entry 9. -/
def Obligations.EveryStepHasAnOutcome : Prop :=
  (∀ (i : Instr) (s : State), ∃ t, exec i s = .next t) ∧
  (∀ s : State, s.refused = false → ∃ t, step s = .next t) ∧
  (∀ s : State, s.refused = true → step s = .refused .refusedState) ∧
  (∀ (i : Instr) (s t : State), i.wellFormed = true → s.refused = false → exec i s = .next t →
    (t.refused = true ↔ i.opcode ∈ unstableOpcodes ∧ s.params.unstable = .refuse)) ∧
  (∀ s t : State, s.params.unstable = .silicon → step s = .next t → t.refused = false)

/-- Every step ends in three picture-unit ticks from the frame position it started at, and one that ends without the
refusal mark counts exactly one cycle (rules R28, R502, R503). No step changes the cartridge's ROM: its PRG banks, its
CHR banks where the image declares CHR pages (rules R74, R76, R77), and what its header fixed (the variant, the page
counts, the mirroring flag, work RAM on variant 0). No step changes the IRQ level and none sets a Reset request, both
inputs between steps (rules R303, R304; log entry 10). That the parameters are a field no step changes is the model's
choice, log entry 7. -/
def Obligations.StepCountsOneCycle : Prop :=
  ∀ s t : State, step s = .next t →
    (t.refused = false → t.cycles = s.cycles + 1) ∧
    (∃ u : State, t = ppuTick (ppuTick (ppuTick u)) ∧ u.ppu.tick = s.ppu.tick) ∧
    t.params = s.params ∧ t.irqLine = s.irqLine ∧
    t.cart.prg = s.cart.prg ∧ (s.cart.chrPages ≠ 0 → t.cart.chr = s.cart.chr) ∧
    t.cart.mapper = s.cart.mapper ∧ t.cart.prgPages = s.cart.prgPages ∧ t.cart.chrPages = s.cart.chrPages ∧
    t.cart.verticalFlag = s.cart.verticalFlag ∧ t.cart.mapper0Wram = s.cart.mapper0Wram ∧
    (t.resetPending = true → s.resetPending = true)

/-- The invariant is kept by every step, from every state that has it: every storage stays in its canonical form and
its size, the frame position, sprite counts and shift count stay in range. -/
def Obligations.StepKeepsInvariant : Prop :=
  ∀ s t : State, s.wf = true → step s = .next t → t.wf = true

/-- The machine at power-on has the invariant, whatever cartridge and canonical memory contents it is built from, and
every loaded image gives such a cartridge; `State.reset` has it. What loading gives (rule R81): an image with no fault of
the rule's two kinds is accepted, and its cartridge has the mapper, page counts and mirroring of the header, the PRG and
CHR bytes that follow it, the work and CHR RAM it is given, and the serial mapper's registers at power-on (rule R90);
an image with a fault is refused, with an error of the kind of its faults where they are of one kind. That bytes 8 to 15
are the required-zero field is log entry 19. That a loaded image has page counts inside the invariant's bounds (2 PRG and
1 CHR pages on variant 0, 16 and 16 on variant 1) rests on the bounds the model's loader sets, log entry 16, as does
which kind of error a page count gives: rule R81 names the errors and no bound. That `State.reset` is a blank cartridge
with nothing listed is log entries 2 and 3. -/
def Obligations.InvariantAtPowerOn : Prop :=
  (∀ (cart : Cartridge) (init : RamInit) (params : Params), cart.wf = true → init.wf = true →
    (State.powerOn cart init params).wf = true) ∧
  (∀ (image : List Byte) (wram0 : Bool) (chrRam wram : Memory 8) (c : Cartridge),
    chrRam.wf 8192 = true → wram.wf 8192 = true → loadCartridge image wram0 chrRam wram = .cartridge c → c.wf = true) ∧
  (∀ (image : List Byte) (wram0 : Bool) (chrRam wram : Memory 8),
    let byte := fun n : Nat => (image.getD n 0).toNat
    let mapper := byte 7 / 16 * 16 + byte 6 / 16
    let p := byte 4
    let c := byte 5
    let loaded := loadCartridge image wram0 chrRam wram
    let invalid :=
      image.take 4 ≠ [0x4E, 0x45, 0x53, 0x1A] ∨ (∃ n, 8 ≤ n ∧ n < 16 ∧ byte n ≠ 0) ∨ p = 0 ∨
        image.length ≠ 16 + 16384 * p + 8192 * c
    let unsupported :=
      byte 6 / 2 % 8 ≠ 0 ∨ byte 7 % 4 ≠ 0 ∨ byte 7 / 4 % 4 = 2 ∨ 2 ≤ mapper ∨
        (mapper = 0 ∧ (2 < p ∨ 1 < c)) ∨ (mapper = 1 ∧ (16 < p ∨ 16 < c))
    (¬ invalid → ¬ unsupported → ∃ k : Cartridge, loaded = .cartridge k ∧
      k.mapper = (if mapper = 0 then .variant0 else .serial) ∧ k.prgPages = p ∧ k.chrPages = c ∧
      k.verticalFlag = decide (byte 6 % 2 = 1) ∧ k.mapper0Wram = wram0 ∧
      (∀ n : Nat, n < 16384 * p → k.prg.read n = image.getD (16 + n) 0) ∧
      (∀ n : Nat, n < 8192 * c → k.chr.read n = image.getD (16 + 16384 * p + n) 0) ∧
      (c = 0 → k.chr = chrRam) ∧ k.wram = wram ∧
      k.control = 0x0C ∧ k.chrBank0 = 0 ∧ k.chrBank1 = 0 ∧ k.prgBank = 0 ∧ k.shift = 0 ∧ k.shiftCount = 0) ∧
    (invalid → ¬ unsupported → ∃ reason, loaded = .error (.invalidFormat reason)) ∧
    (unsupported → ¬ invalid → ∃ reason, loaded = .error (.unsupportedFormat reason)) ∧
    (invalid → unsupported → ∃ e, loaded = .error e)) ∧
  State.reset.wf = true

/-! ### Instruction results -/

/-- LDA, LDX and LDY (rules R140 to R142): in every form the register takes the operand byte, N and Z follow it, and
nothing else changes but what the read itself does; the cost is the row's, one more on a marked page crossing
(rules R104, R504). -/
def Obligations.LoadResults : Prop :=
  HasRows .lda [(0xA1, .indexedIndirect), (0xA5, .zeroPage), (0xA9, .immediate), (0xAD, .absolute),
      (0xB1, .indirectIndexed), (0xB5, .zeroPageX), (0xB9, .absoluteY), (0xBD, .absoluteX)] ∧
  HasRows .ldx [(0xA2, .immediate), (0xA6, .zeroPage), (0xAE, .absolute), (0xB6, .zeroPageY), (0xBE, .absoluteY)] ∧
  HasRows .ldy [(0xA0, .immediate), (0xA4, .zeroPage), (0xAC, .absolute), (0xB4, .zeroPageX), (0xBC, .absoluteX)] ∧
  ∀ (i : Instr) (src : Source) (s : State), i.wellFormed = true → i.operand.source = some src →
    let m := load src (atNext i s)
    let cost := costOf i m.crossed
    (i.kind = .lda → exec i s = .next { m.state with a := m.value, flags := nzOf s.flags m.value, remaining := cost }) ∧
    (i.kind = .ldx → exec i s = .next { m.state with x := m.value, flags := nzOf s.flags m.value, remaining := cost }) ∧
    (i.kind = .ldy → exec i s = .next { m.state with y := m.value, flags := nzOf s.flags m.value, remaining := cost })

/-- STA, STX and STY (rules R143 to R145): one byte is written at the effective address, which is not read; no flag and
no register changes; no form pays for a page crossing, and only a write to `$4014` adds a stall. -/
def Obligations.StoreResults : Prop :=
  HasRows .sta [(0x81, .indexedIndirect), (0x85, .zeroPage), (0x8D, .absolute), (0x91, .indirectIndexed),
      (0x95, .zeroPageX), (0x99, .absoluteY), (0x9D, .absoluteX)] ∧
  HasRows .stx [(0x86, .zeroPage), (0x8E, .absolute), (0x96, .zeroPageY)] ∧
  HasRows .sty [(0x84, .zeroPage), (0x8C, .absolute), (0x94, .zeroPageX)] ∧
  ∀ (i : Instr) (o : MemOperand) (s : State), i.wellFormed = true → i.operand = .memory o →
    let ea := (resolve o (atNext i s)).ea
    let cost := i.row.cycles.getD 1
    let wrote := fun v : Byte => { memWrite ea v (atNext i s) with remaining := cost + stallOf s cost ea }
    (i.kind = .sta → exec i s = .next (wrote s.a)) ∧
    (i.kind = .stx → exec i s = .next (wrote s.x)) ∧
    (i.kind = .sty → exec i s = .next (wrote s.y))

/-- The register transfers (rules R146 to R151): TXS writes no flag, the others set N and Z from the byte moved. -/
def Obligations.TransferResults : Prop :=
  HasRows .tax [(0xAA, .implied)] ∧ HasRows .tay [(0xA8, .implied)] ∧ HasRows .txa [(0x8A, .implied)] ∧
  HasRows .tya [(0x98, .implied)] ∧ HasRows .tsx [(0xBA, .implied)] ∧ HasRows .txs [(0x9A, .implied)] ∧
  ∀ s : State,
    let t : State := { s with pc := s.pc + 1, remaining := 2 }
    exec .tax s = .next { t with x := s.a, flags := nzOf s.flags s.a } ∧
    exec .tay s = .next { t with y := s.a, flags := nzOf s.flags s.a } ∧
    exec .txa s = .next { t with a := s.x, flags := nzOf s.flags s.x } ∧
    exec .tya s = .next { t with a := s.y, flags := nzOf s.flags s.y } ∧
    exec .tsx s = .next { t with x := s.sp, flags := nzOf s.flags s.sp } ∧
    exec .txs s = .next { t with sp := s.x }

/-- ADC (rule R163): A becomes the low 8 bits of the 9-bit sum of A, the operand and C, C its bit 8, V the overflow of
rule R161, N and Z from the result, in every form and whatever D is. -/
def Obligations.AdcResult : Prop :=
  HasRows .adc [(0x61, .indexedIndirect), (0x65, .zeroPage), (0x69, .immediate), (0x6D, .absolute),
      (0x71, .indirectIndexed), (0x75, .zeroPageX), (0x79, .absoluteY), (0x7D, .absoluteX)] ∧
  ∀ (i : Instr) (src : Source) (s : State), i.wellFormed = true → i.operand.source = some src → i.kind = .adc →
    let m := load src (atNext i s)
    exec i s = .next { afterAdd m.state s.flags m.value with remaining := costOf i m.crossed }

/-- SBC in every form, `$EB` among them: the addition of rule R161 with the complement of the operand, that is
`A - M - (1 - C)` modulo 256 with C set when there is no borrow. The closed form of V over the operand itself is the
spec's own derivation. -/
def Obligations.SbcResult : Prop :=
  HasRows .sbc [(0xE1, .indexedIndirect), (0xE5, .zeroPage), (0xE9, .immediate), (0xEB, .immediate), (0xED, .absolute),
      (0xF1, .indirectIndexed), (0xF5, .zeroPageX), (0xF9, .absoluteY), (0xFD, .absoluteX)] ∧
  ∀ (i : Instr) (src : Source) (s : State), i.wellFormed = true → i.operand.source = some src → i.kind = .sbc →
    let m := load src (atNext i s)
    let r : Byte := s.a - m.value - (if s.flags.c then 0 else 1)
    exec i s = .next { m.state with
      a := r
      flags := { nzOf s.flags r with
        c := decide (m.value.toNat + (if s.flags.c then 0 else 1) ≤ s.a.toNat)
        v := ((s.a ^^^ m.value) &&& (s.a ^^^ r)).getLsbD 7 }
      remaining := costOf i m.crossed }

/-- What the shared adder computes, read as numbers: the result and the carry are the unsigned sum, and V says exactly
when the signed sum does not fit in 8 bits. The integer reading is the spec's own derivation from rule R161. -/
def Obligations.AdderIsIntegerAddition : Prop :=
  ∀ (a b : Byte) (f : Flags),
    let r := addWithCarry a b f
    r.1.toNat = (a.toNat + b.toNat + f.c.toNat) % 256 ∧
    (r.2.c = true ↔ 256 ≤ a.toNat + b.toNat + f.c.toNat) ∧
    (r.2.v = true ↔ a.toInt + b.toInt + f.c.toNat < -128 ∨ 127 < a.toInt + b.toInt + f.c.toNat) ∧
    (r.2.v = false → r.1.toInt = a.toInt + b.toInt + f.c.toNat) ∧
    (r.2.n = true ↔ r.1.toInt < 0) ∧ (r.2.z = true ↔ r.1 = 0) ∧ r.2.i = f.i ∧ r.2.d = f.d

/-- AND, ORA, EOR and BIT (rules R165 to R168): BIT writes no register and takes N and V from the operand itself. -/
def Obligations.LogicResults : Prop :=
  HasRows .and [(0x21, .indexedIndirect), (0x25, .zeroPage), (0x29, .immediate), (0x2D, .absolute),
      (0x31, .indirectIndexed), (0x35, .zeroPageX), (0x39, .absoluteY), (0x3D, .absoluteX)] ∧
  HasRows .ora [(0x01, .indexedIndirect), (0x05, .zeroPage), (0x09, .immediate), (0x0D, .absolute),
      (0x11, .indirectIndexed), (0x15, .zeroPageX), (0x19, .absoluteY), (0x1D, .absoluteX)] ∧
  HasRows .eor [(0x41, .indexedIndirect), (0x45, .zeroPage), (0x49, .immediate), (0x4D, .absolute),
      (0x51, .indirectIndexed), (0x55, .zeroPageX), (0x59, .absoluteY), (0x5D, .absoluteX)] ∧
  HasRows .bit [(0x24, .zeroPage), (0x2C, .absolute)] ∧
  ∀ (i : Instr) (src : Source) (s : State), i.wellFormed = true → i.operand.source = some src →
    let m := load src (atNext i s)
    let into := fun r : Byte => { m.state with a := r, flags := nzOf s.flags r, remaining := costOf i m.crossed }
    (i.kind = .and → exec i s = .next (into (s.a &&& m.value))) ∧
    (i.kind = .ora → exec i s = .next (into (s.a ||| m.value))) ∧
    (i.kind = .eor → exec i s = .next (into (s.a ^^^ m.value))) ∧
    (i.kind = .bit → exec i s = .next { m.state with
      flags := { s.flags with z := decide (s.a &&& m.value = 0), n := m.value.getLsbD 7, v := m.value.getLsbD 6 }
      remaining := costOf i m.crossed })

/-- CMP, CPX and CPY (rules R169 to R171): C is "register at least memory" unsigned, Z equality, N bit 7 of the 8-bit
difference; no register changes. -/
def Obligations.CompareResults : Prop :=
  HasRows .cmp [(0xC1, .indexedIndirect), (0xC5, .zeroPage), (0xC9, .immediate), (0xCD, .absolute),
      (0xD1, .indirectIndexed), (0xD5, .zeroPageX), (0xD9, .absoluteY), (0xDD, .absoluteX)] ∧
  HasRows .cpx [(0xE0, .immediate), (0xE4, .zeroPage), (0xEC, .absolute)] ∧ HasRows .cpy [(0xC0, .immediate), (0xC4, .zeroPage), (0xCC, .absolute)] ∧
  ∀ (i : Instr) (src : Source) (s : State), i.wellFormed = true → i.operand.source = some src →
    let m := load src (atNext i s)
    let with_ := fun f : Flags => { m.state with flags := f, remaining := costOf i m.crossed }
    (i.kind = .cmp → exec i s = .next (with_ (compared s.flags s.a m.value))) ∧
    (i.kind = .cpx → exec i s = .next (with_ (compared s.flags s.x m.value))) ∧
    (i.kind = .cpy → exec i s = .next (with_ (compared s.flags s.y m.value)))

/-- INC and DEC (rules R172, R173) add or take 1 modulo 256 at the place they read; INX, INY, DEX and DEY (rules R174 to
R177) the same on a register. N and Z follow the result and C does not change. -/
def Obligations.IncrementDecrementResults : Prop :=
  HasRows .inc [(0xE6, .zeroPage), (0xEE, .absolute), (0xF6, .zeroPageX), (0xFE, .absoluteX)] ∧
  HasRows .dec [(0xC6, .zeroPage), (0xCE, .absolute), (0xD6, .zeroPageX), (0xDE, .absoluteX)] ∧
  HasRows .inx [(0xE8, .implied)] ∧ HasRows .iny [(0xC8, .implied)] ∧ HasRows .dex [(0xCA, .implied)] ∧ HasRows .dey [(0x88, .implied)] ∧
  (∀ (i : Instr) (o : MemOperand) (s : State), i.wellFormed = true → i.operand = .memory o →
    let ea := (resolve o (atNext i s)).ea
    let m := memRead ea (atNext i s)
    let cost := i.row.cycles.getD 1
    let wrote := fun r : Byte =>
      { memWrite ea r m.2 with flags := nzOf s.flags r, remaining := cost + stallOf s cost ea }
    (i.kind = .inc → exec i s = .next (wrote (BitVec.ofNat 8 (m.1.toNat + 1)))) ∧
    (i.kind = .dec → exec i s = .next (wrote (BitVec.ofNat 8 (m.1.toNat + 255))))) ∧
  ∀ s : State,
    let t : State := { s with pc := s.pc + 1, remaining := 2 }
    exec .inx s = .next { t with x := s.x + 1, flags := nzOf s.flags (s.x + 1) } ∧
    exec .iny s = .next { t with y := s.y + 1, flags := nzOf s.flags (s.y + 1) } ∧
    exec .dex s = .next { t with x := s.x - 1, flags := nzOf s.flags (s.x - 1) } ∧
    exec .dey s = .next { t with y := s.y - 1, flags := nzOf s.flags (s.y - 1) }

/-- ASL, LSR, ROL and ROR (rules R191 to R194), on A or on the byte at the effective address, read once and written
once. The result is given as a number: doubled or halved, with C in at the free end for the rotates; C takes the bit
shifted out. -/
def Obligations.ShiftResults : Prop :=
  HasRows .asl [(0x06, .zeroPage), (0x0A, .accumulator), (0x0E, .absolute), (0x16, .zeroPageX), (0x1E, .absoluteX)] ∧
  HasRows .lsr [(0x46, .zeroPage), (0x4A, .accumulator), (0x4E, .absolute), (0x56, .zeroPageX), (0x5E, .absoluteX)] ∧
  HasRows .rol [(0x26, .zeroPage), (0x2A, .accumulator), (0x2E, .absolute), (0x36, .zeroPageX), (0x3E, .absoluteX)] ∧
  HasRows .ror [(0x66, .zeroPage), (0x6A, .accumulator), (0x6E, .absolute), (0x76, .zeroPageX), (0x7E, .absoluteX)] ∧
  ∀ (i : Instr) (s : State), i.wellFormed = true →
    let result := fun m : Byte =>
      match i.kind with
      | .asl => (BitVec.ofNat 8 (2 * m.toNat), m.getLsbD 7)
      | .lsr => (BitVec.ofNat 8 (m.toNat / 2), m.getLsbD 0)
      | .rol => (BitVec.ofNat 8 (2 * m.toNat + s.flags.c.toNat), m.getLsbD 7)
      | _ => ((BitVec.ofNat 8 (m.toNat / 2 + 128 * s.flags.c.toNat) : Byte), m.getLsbD 0)
    i.kind ∈ [Mnemonic.asl, .lsr, .rol, .ror] →
    (i.operand = .accumulator →
      exec i s = .next { atNext i s with
        a := (result s.a).1
        flags := { nzOf s.flags (result s.a).1 with c := (result s.a).2 }
        remaining := 2 }) ∧
    (∀ o : MemOperand, i.operand = .memory o →
      let ea := (resolve o (atNext i s)).ea
      let m := memRead ea (atNext i s)
      let cost := i.row.cycles.getD 1
      exec i s = .next { memWrite ea (result m.1).1 m.2 with
        flags := { nzOf s.flags (result m.1).1 with c := (result m.1).2 }
        remaining := cost + stallOf s cost ea })

/-- Every NOP form (rules R231, R241 to R243) moves PC past itself and does nothing else, but for the read a memory
operand makes and its side effects. -/
def Obligations.NopResults : Prop :=
  HasRows .nop [(0x04, .zeroPage), (0x0C, .absolute), (0x14, .zeroPageX), (0x1A, .implied), (0x1C, .absoluteX),
      (0x34, .zeroPageX), (0x3A, .implied), (0x3C, .absoluteX), (0x44, .zeroPage), (0x54, .zeroPageX), (0x5A, .implied),
      (0x5C, .absoluteX), (0x64, .zeroPage), (0x74, .zeroPageX), (0x7A, .implied), (0x7C, .absoluteX), (0x80, .immediate),
      (0x82, .immediate), (0x89, .immediate), (0xC2, .immediate), (0xD4, .zeroPageX), (0xDA, .implied), (0xDC, .absoluteX),
      (0xE2, .immediate), (0xEA, .implied), (0xF4, .zeroPageX), (0xFA, .implied), (0xFC, .absoluteX)] ∧
  ∀ (i : Instr) (s : State), i.wellFormed = true → i.kind = .nop →
    (i.operand = .implied → exec i s = .next { atNext i s with remaining := 2 }) ∧
    (∀ m : Byte, i.operand = .immediate m → exec i s = .next { atNext i s with remaining := 2 }) ∧
    (∀ o : MemOperand, i.operand = .memory o →
      let r := resolve o (atNext i s)
      exec i s = .next { (memRead r.ea (atNext i s)).2 with remaining := costOf i r.crossed })

/-- LAX loads A and X together (rule R244); SAX stores `A & X` and writes no flag (rule R245). -/
def Obligations.LaxSaxResults : Prop :=
  HasRows .lax [(0xA3, .indexedIndirect), (0xA7, .zeroPage), (0xAF, .absolute), (0xB3, .indirectIndexed),
      (0xB7, .zeroPageY), (0xBF, .absoluteY)] ∧
  HasRows .sax [(0x83, .indexedIndirect), (0x87, .zeroPage), (0x8F, .absolute), (0x97, .zeroPageY)] ∧
  ∀ (i : Instr) (o : MemOperand) (s : State), i.wellFormed = true → i.operand = .memory o →
    let m := load (.memory o) (atNext i s)
    let ea := (resolve o (atNext i s)).ea
    let cost := i.row.cycles.getD 1
    (i.kind = .lax → exec i s = .next { m.state with
      a := m.value
      x := m.value
      flags := nzOf s.flags m.value
      remaining := costOf i m.crossed }) ∧
    (i.kind = .sax → exec i s = .next { memWrite ea (s.a &&& s.x) (atNext i s) with
      remaining := cost + stallOf s cost ea })

/-- The combined read-modify-write opcodes (rules R247 to R252): one read, one write of the modified byte at the same
place, then the accumulator operation with that byte; RRA's addition takes the carry its rotate produced. -/
def Obligations.CombinedResults : Prop :=
  HasRows .slo [(0x03, .indexedIndirect), (0x07, .zeroPage), (0x0F, .absolute), (0x13, .indirectIndexed),
      (0x17, .zeroPageX), (0x1B, .absoluteY), (0x1F, .absoluteX)] ∧
  HasRows .rla [(0x23, .indexedIndirect), (0x27, .zeroPage), (0x2F, .absolute), (0x33, .indirectIndexed),
      (0x37, .zeroPageX), (0x3B, .absoluteY), (0x3F, .absoluteX)] ∧
  HasRows .sre [(0x43, .indexedIndirect), (0x47, .zeroPage), (0x4F, .absolute), (0x53, .indirectIndexed),
      (0x57, .zeroPageX), (0x5B, .absoluteY), (0x5F, .absoluteX)] ∧
  HasRows .rra [(0x63, .indexedIndirect), (0x67, .zeroPage), (0x6F, .absolute), (0x73, .indirectIndexed),
      (0x77, .zeroPageX), (0x7B, .absoluteY), (0x7F, .absoluteX)] ∧
  HasRows .dcp [(0xC3, .indexedIndirect), (0xC7, .zeroPage), (0xCF, .absolute), (0xD3, .indirectIndexed),
      (0xD7, .zeroPageX), (0xDB, .absoluteY), (0xDF, .absoluteX)] ∧
  HasRows .isb [(0xE3, .indexedIndirect), (0xE7, .zeroPage), (0xEF, .absolute), (0xF3, .indirectIndexed),
      (0xF7, .zeroPageX), (0xFB, .absoluteY), (0xFF, .absoluteX)] ∧
  ∀ (i : Instr) (o : MemOperand) (s : State), i.wellFormed = true → i.operand = .memory o →
    let ea := (resolve o (atNext i s)).ea
    let m := memRead ea (atNext i s)
    let cost := i.row.cycles.getD 1
    let done := fun t : State => { t with remaining := cost + stallOf s cost ea }
    let left : Byte := BitVec.ofNat 8 (2 * m.1.toNat)
    let leftIn : Byte := BitVec.ofNat 8 (2 * m.1.toNat + s.flags.c.toNat)
    let right : Byte := BitVec.ofNat 8 (m.1.toNat / 2)
    let rightIn : Byte := BitVec.ofNat 8 (m.1.toNat / 2 + 128 * s.flags.c.toNat)
    let out7 := m.1.getLsbD 7
    let out0 := m.1.getLsbD 0
    (i.kind = .slo → exec i s = .next (done { memWrite ea left m.2 with
      a := s.a ||| left, flags := { nzOf s.flags (s.a ||| left) with c := out7 } })) ∧
    (i.kind = .rla → exec i s = .next (done { memWrite ea leftIn m.2 with
      a := s.a &&& leftIn, flags := { nzOf s.flags (s.a &&& leftIn) with c := out7 } })) ∧
    (i.kind = .sre → exec i s = .next (done { memWrite ea right m.2 with
      a := s.a ^^^ right, flags := { nzOf s.flags (s.a ^^^ right) with c := out0 } })) ∧
    (i.kind = .rra → exec i s =
      .next (done (afterAdd (memWrite ea rightIn m.2) { s.flags with c := out0 } rightIn))) ∧
    (i.kind = .dcp → exec i s = .next (done { memWrite ea (m.1 - 1) m.2 with
      flags := compared s.flags s.a (m.1 - 1) })) ∧
    (i.kind = .isb → exec i s =
      .next (done (afterAdd (memWrite ea (m.1 + 1) m.2) s.flags (~~~(m.1 + 1)))))

/-- ANC, ALR, ARR and AXS (rules R253 to R256). -/
def Obligations.ImmediateCombinationResults : Prop :=
  HasRows .anc [(0x0B, .immediate), (0x2B, .immediate)] ∧ HasRows .alr [(0x4B, .immediate)] ∧
  HasRows .arr [(0x6B, .immediate)] ∧ HasRows .axs [(0xCB, .immediate)] ∧
  ∀ (op m : Byte) (s : State),
    let t : State := { s with pc := s.pc + 2, remaining := 2 }
    let r := s.a &&& m
    let half : Byte := BitVec.ofNat 8 (r.toNat / 2)
    let rot : Byte := BitVec.ofNat 8 (r.toNat / 2 + 128 * s.flags.c.toNat)
    let both := s.a &&& s.x
    ((Instr.ancImm op m).wellFormed = true →
      exec (.ancImm op m) s = .next { t with a := r, flags := { nzOf s.flags r with c := r.getLsbD 7 } }) ∧
    exec (.alrImm m) s = .next { t with a := half, flags := { nzOf s.flags half with c := r.getLsbD 0 } } ∧
    exec (.arrImm m) s = .next { t with
      a := rot, flags := { nzOf s.flags rot with c := rot.getLsbD 6, v := rot.getLsbD 6 ^^ rot.getLsbD 5 } } ∧
    exec (.axsImm m) s = .next { t with
      x := both - m, flags := { nzOf s.flags (both - m) with c := decide (m.toNat ≤ both.toNat) } }

/-- The eight conditional branches (rules R201 to R208): PC goes to the address after the branch plus the signed
displacement when the flag has the value the mnemonic names, and to the address after the branch otherwise; only PC
and the cost change. The cost is the subject of `BranchCost`. -/
def Obligations.BranchResults : Prop :=
  HasRows .bpl [(0x10, .relative)] ∧ HasRows .bmi [(0x30, .relative)] ∧ HasRows .bvc [(0x50, .relative)] ∧
  HasRows .bvs [(0x70, .relative)] ∧ HasRows .bcc [(0x90, .relative)] ∧ HasRows .bcs [(0xB0, .relative)] ∧
  HasRows .bne [(0xD0, .relative)] ∧ HasRows .beq [(0xF0, .relative)] ∧
  ∀ (d : Byte) (s : State),
    let goes := fun (i : Instr) (taken : Bool) => ∃ cost : Nat, exec i s = .next { s with
      pc := BitVec.ofInt 16 ((s.pc.toNat : Int) + 2 + (if taken then d.toInt else 0))
      remaining := cost }
    goes (.bpl d) (s.flags.n == false) ∧ goes (.bmi d) (s.flags.n == true) ∧
    goes (.bvc d) (s.flags.v == false) ∧ goes (.bvs d) (s.flags.v == true) ∧
    goes (.bcc d) (s.flags.c == false) ∧ goes (.bcs d) (s.flags.c == true) ∧
    goes (.bne d) (s.flags.z == false) ∧ goes (.beq d) (s.flags.z == true)

/-- The cost of a branch: 2 when its condition does not hold, 3 when it holds and the target is on the page of the
next instruction, 4 when the target is on another page. The page compared with is the spec's decision D6
(`BRANCH_PAGE_RULE = next`). -/
def Obligations.BranchCost : Prop :=
  ∀ (d : Byte) (s : State),
    let next := (s.pc.toNat + 2) % 65536
    let target := ((next : Int) + d.toInt) % 65536
    let costs := fun (i : Instr) (taken : Bool) => ∃ t, exec i s = .next t ∧
      t.remaining = if taken then (if target / 256 = next / 256 then 3 else 4) else 2
    costs (.bpl d) (s.flags.n == false) ∧ costs (.bmi d) (s.flags.n == true) ∧
    costs (.bvc d) (s.flags.v == false) ∧ costs (.bvs d) (s.flags.v == true) ∧
    costs (.bcc d) (s.flags.c == false) ∧ costs (.bcs d) (s.flags.c == true) ∧
    costs (.bne d) (s.flags.z == false) ∧ costs (.beq d) (s.flags.z == true)

/-- JMP (rules R209, R210): the absolute form goes to its operand and reads nothing; the indirect form reads its pointer
low byte first, the second byte from the same page, so that a pointer at `$xxFF` takes its high byte from `$xx00`. -/
def Obligations.JumpResults : Prop :=
  HasRows .jmp [(0x4C, .absolute), (0x6C, .indirect)] ∧
  ∀ (w : Addr) (s : State),
    exec (.jmpAbs w) s = .next { s with pc := w, remaining := 3 } ∧
    (let lo := memRead w (atNext (.jmpInd w) s)
     let hi := memRead (BitVec.ofNat 16 (256 * (w.toNat / 256) + (w.toNat + 1) % 256)) lo.2
     exec (.jmpInd w) s = .next { hi.2 with
       pc := BitVec.ofNat 16 (256 * hi.1.toNat + lo.1.toNat), remaining := 5 })

/-- PHA, PHP, PLA and PLP (rules R220 to R223): a push writes `$0100 + SP` and lowers SP, a pull raises SP and reads
there, both modulo 256; PHP pushes B = 1 and U = 1; PLP ignores bits 5 and 4. -/
def Obligations.StackResults : Prop :=
  HasRows .pha [(0x48, .implied)] ∧ HasRows .php [(0x08, .implied)] ∧ HasRows .pla [(0x68, .implied)] ∧ HasRows .plp [(0x28, .implied)] ∧
  ∀ s : State,
    let status : Byte := BitVec.ofNat 8 (128 * s.flags.n.toNat + 64 * s.flags.v.toNat + 32 + 16 + 8 * s.flags.d.toNat +
      4 * s.flags.i.toNat + 2 * s.flags.z.toNat + s.flags.c.toNat)
    let top := s.ram.read (stackCell (s.sp + 1))
    exec .pha s = .next { s with
      ram := s.ram.write (stackCell s.sp) s.a, sp := s.sp - 1, pc := s.pc + 1, remaining := 3 } ∧
    exec .php s = .next { s with
      ram := s.ram.write (stackCell s.sp) status, sp := s.sp - 1, pc := s.pc + 1, remaining := 3 } ∧
    exec .pla s = .next { s with
      a := top, flags := nzOf s.flags top, sp := s.sp + 1, pc := s.pc + 1, remaining := 4 } ∧
    exec .plp s = .next { s with
      flags := ⟨top.getLsbD 7, top.getLsbD 6, top.getLsbD 3, top.getLsbD 2, top.getLsbD 1, top.getLsbD 0⟩
      sp := s.sp + 1, pc := s.pc + 1, remaining := 4 }

/-- The flag instructions (rules R224 to R230) change one flag and nothing else but PC. -/
def Obligations.FlagResults : Prop :=
  HasRows .clc [(0x18, .implied)] ∧ HasRows .sec [(0x38, .implied)] ∧ HasRows .cli [(0x58, .implied)] ∧ HasRows .sei [(0x78, .implied)] ∧
  HasRows .cld [(0xD8, .implied)] ∧ HasRows .sed [(0xF8, .implied)] ∧ HasRows .clv [(0xB8, .implied)] ∧
  ∀ s : State,
    let t : State := { s with pc := s.pc + 1, remaining := 2 }
    exec .clc s = .next { t with flags := { s.flags with c := false } } ∧
    exec .sec s = .next { t with flags := { s.flags with c := true } } ∧
    exec .cli s = .next { t with flags := { s.flags with i := false } } ∧
    exec .sei s = .next { t with flags := { s.flags with i := true } } ∧
    exec .cld s = .next { t with flags := { s.flags with d := false } } ∧
    exec .sed s = .next { t with flags := { s.flags with d := true } } ∧
    exec .clv s = .next { t with flags := { s.flags with v := false } }

/-- Under `UNSTABLE_OPCODES = refuse`, the spec's default, each of the eight unstable opcodes moves PC past itself, sets
the refusal mark and changes nothing else (rule R502, decision D4; log entry 8). -/
def Obligations.UnstableOpcodesMark : Prop :=
  HasRows .xaa [(0x8B, .immediate)] ∧ HasRows .lxa [(0xAB, .immediate)] ∧
  HasRows .ahx [(0x93, .indirectIndexed), (0x9F, .absoluteY)] ∧ HasRows .tas [(0x9B, .absoluteY)] ∧
  HasRows .shy [(0x9C, .absoluteX)] ∧ HasRows .shx [(0x9E, .absoluteY)] ∧ HasRows .las [(0xBB, .absoluteY)] ∧
  ∀ (i : Instr) (s : State), i.wellFormed = true → i.opcode ∈ unstableOpcodes → s.params.unstable = .refuse →
    exec i s = .next { s with pc := s.pc + BitVec.ofNat 16 i.row.length, refused := true }

/-- Under `UNSTABLE_OPCODES = silicon` each of the eight has the effect its rule quotes of the chip, whatever the chip's
constants and whatever address a page crossing corrupts a store to (the model's reading: log entry 9). The cost has
no stated value. -/
def Obligations.UnstableOpcodesOnSilicon : Prop :=
  ∀ s : State, s.params.unstable = .silicon →
    (∀ m : Byte, ∃ cost r, r = (s.a ||| Config.xaaMagic) &&& s.x &&& m ∧
      exec (.xaaImm m) s = .next { s with a := r, flags := nzOf s.flags r, pc := s.pc + 2, remaining := cost }) ∧
    (∀ m : Byte, ∃ cost r, r = (s.a ||| Config.lxaMagic) &&& m ∧
      exec (.lxaImm m) s = .next { s with a := r, x := r, flags := nzOf s.flags r, pc := s.pc + 2, remaining := cost }) ∧
    (∀ w : Addr,
      let m := load (.memory (.absoluteY w)) (atNext (.lasAbsY w) s)
      let r := m.value &&& s.sp
      ∃ cost, exec (.lasAbsY w) s = .next { m.state with
        a := r, x := r, sp := r, flags := nzOf s.flags r, remaining := cost }) ∧
    (∀ w : Addr,
      let s0 := atNext (.tasAbsY w) s
      let sp := s.a &&& s.x
      let v := sp &&& BitVec.ofNat 8 (w.toNat / 256 + 1)
      ∃ cost, exec (.tasAbsY w) s = .next { memWrite (resolve (.absoluteY w) s0).ea v { s0 with sp := sp } with
        remaining := cost }) ∧
    (let stores := fun (i : Instr) (o : MemOperand) (v : Byte) =>
      let s0 := atNext i s
      let r := resolve o s0
      (r.crossed = false → ∃ cost, exec i s = .next { memWrite r.ea v s0 with remaining := cost }) ∧
      (r.crossed = true → ∃ cost, exec i s =
        .next { memWrite (Config.unstableAddr s.draws) v { s0 with draws := s.draws + 1 } with remaining := cost })
    (∀ w : Addr, stores (.shyAbsX w) (.absoluteX w) (s.y &&& BitVec.ofNat 8 (w.toNat / 256 + 1))) ∧
    (∀ w : Addr, stores (.shxAbsY w) (.absoluteY w) (s.x &&& BitVec.ofNat 8 (w.toNat / 256 + 1))) ∧
    (∀ w : Addr, stores (.ahxAbsY w) (.absoluteY w) (s.a &&& s.x &&& BitVec.ofNat 8 (w.toNat / 256 + 1))) ∧
    (∀ a : Byte, stores (.ahxIndY a) (.indirectIndexed a)
      (s.a &&& s.x &&& (s.ram.read ((a.toNat + 1) % 256) + 1))))

/-- Rule R160: D has no effect on what an instruction computes. Two runs of one instruction that differ in D end in
states that differ in D at most, for every instruction but the six that set, clear, push or pull D (their results
are the subjects of `FlagResults`, `StackResults`, `BrkResult` and `RtiResult`). -/
def Obligations.DecimalFlagHasNoEffect : Prop :=
  ∀ (i : Instr) (s : State) (b : Bool), i.wellFormed = true →
    i.kind ∉ [Mnemonic.cld, .sed, .php, .plp, .brk, .rti] →
    ∃ t, exec i s = .next t ∧
      exec i { s with flags := { s.flags with d := b } } = .next { t with flags := { t.flags with d := b } }

/-! ### Frames -/

/-- A read instruction stores to no memory cell, and changes no register but its destination, no flag but those its
rule names, and nothing of the control state; PC moves past it. What the read itself changes is in the picture unit
and the draw counter only. -/
def Obligations.ReadInstructionFrame : Prop :=
  ∀ (i : Instr) (src : Source) (s t : State), i.wellFormed = true → i.kind ∈ readKinds →
    i.operand.source = some src → exec i s = .next t →
    (∀ c : Cell, t.cell c = s.cell c) ∧
    t.cart = s.cart ∧ t.ram = s.ram ∧ t.sp = s.sp ∧ t.pc = s.pc + BitVec.ofNat 16 i.row.length ∧
    t.cycles = s.cycles ∧ t.nmiPending = s.nmiPending ∧ t.resetPending = s.resetPending ∧ t.irqLine = s.irqLine ∧
    t.halted = s.halted ∧ t.refused = s.refused ∧ t.params = s.params ∧
    t.flags.i = s.flags.i ∧ t.flags.d = s.flags.d ∧
    (i.kind ∉ [Mnemonic.lda, .adc, .sbc, .and, .ora, .eor, .lax, .anc, .alr, .arr] → t.a = s.a) ∧
    (i.kind ∉ [Mnemonic.ldx, .lax, .axs] → t.x = s.x) ∧
    (i.kind ≠ .ldy → t.y = s.y) ∧
    (i.kind ∉ [Mnemonic.adc, .sbc, .bit, .arr] → t.flags.v = s.flags.v) ∧
    (i.kind ∉ [Mnemonic.adc, .sbc, .cmp, .cpx, .cpy, .anc, .alr, .arr, .axs] → t.flags.c = s.flags.c) ∧
    (i.kind = .nop → t.flags = s.flags) ∧
    (∀ m : Byte, src = .immediate m → t.ppu = s.ppu ∧ t.draws = s.draws)

/-- An instruction that stores (a write or read-modify-write instruction with a memory operand) changes no memory cell
but those a CPU write to its effective address stores to, the address being the one its meaning computes. Registers
and flags change only as its rule says. -/
def Obligations.StoreInstructionFrame : Prop :=
  ∀ (i : Instr) (o : MemOperand) (s t : State), i.wellFormed = true → s.wf = true →
    i.kind ∈ writeKinds ∨ i.kind ∈ rmwKinds → i.operand = .memory o → exec i s = .next t →
    let ea := (resolve o (atNext i s)).ea
    let before := if i.kind ∈ rmwKinds then (memRead ea (atNext i s)).2 else atNext i s
    (∀ c : Cell, cpuStores before ea c = false → t.cell c = s.cell c) ∧
    t.cart.prg = s.cart.prg ∧ t.x = s.x ∧ t.y = s.y ∧ t.sp = s.sp ∧ t.pc = s.pc + BitVec.ofNat 16 i.row.length ∧
    t.cycles = s.cycles ∧ t.nmiPending = s.nmiPending ∧ t.resetPending = s.resetPending ∧ t.irqLine = s.irqLine ∧
    t.halted = s.halted ∧ t.refused = s.refused ∧ t.params = s.params ∧
    t.flags.i = s.flags.i ∧ t.flags.d = s.flags.d ∧
    (i.kind ∈ writeKinds → t.flags = s.flags) ∧
    (i.kind ∉ [Mnemonic.slo, .rla, .sre, .rra, .isb] → t.a = s.a) ∧
    (i.kind ∉ [Mnemonic.rra, .isb] → t.flags.v = s.flags.v) ∧
    (i.kind ∈ [Mnemonic.inc, .dec] → t.flags.c = s.flags.c)

/-- The stack frame: PHA, PHP, JSR, BRK and interrupt entry change only the cells of the bytes they push; PLA, PLP, RTS
and RTI change no memory cell. -/
def Obligations.StackFrame : Prop :=
  ∀ s : State, s.wf = true →
    (∀ i t, i ∈ [Instr.pha, .php] → exec i s = .next t →
      ∀ c : Cell, c ≠ .ram (stackCell s.sp) → t.cell c = s.cell c) ∧
    (∀ w t, exec (.jsrAbs w) s = .next t →
      ∀ c : Cell, c ≠ .ram (stackCell s.sp) → c ≠ .ram (stackCell (s.sp - 1)) → t.cell c = s.cell c) ∧
    (∀ t, (exec .brk s = .next t ∨ t = nmiEntry s ∨ t = irqEntry s) →
      ∀ c : Cell, c ≠ .ram (stackCell s.sp) → c ≠ .ram (stackCell (s.sp - 1)) → c ≠ .ram (stackCell (s.sp - 2)) →
        t.cell c = s.cell c) ∧
    (∀ i t, i ∈ [Instr.pla, .plp, .rts, .rti] → exec i s = .next t → ∀ c : Cell, t.cell c = s.cell c)

/-! ### Addresses and memory -/

/-- The effective address and the page-crossed flag of each memory mode, as numbers; resolving changes no state.
Zero-page sums and pointers wrap within page 0, 16-bit sums wrap at `$FFFF` (rules R124, R125, R128 to R130, R132,
R133; zero page,Y is the spec's derivation from R125). A read instruction's operand in memory is one read of that
address, with the read's own side effects and no other access (rule R135; that no class makes a dummy access is the
spec's decision D8). -/
def Obligations.EffectiveAddresses : Prop :=
  ∀ (a : Byte) (w : Addr) (s : State),
    let pointer := fun p : Nat => 256 * (s.ram.read ((p + 1) % 256)).toNat + (s.ram.read (p % 256)).toNat
    let resolves := fun (o : MemOperand) (ea : Nat) (crossed : Bool) =>
      resolve o s = ⟨BitVec.ofNat 16 ea, crossed, s⟩
    let indexes := fun (o : MemOperand) (base : Nat) (index : Byte) =>
      resolves o ((base + index.toNat) % 65536)
        (decide ((base + index.toNat) % 65536 / 256 ≠ base / 256))
    resolves (.zeroPage a) a.toNat false ∧
    resolves (.zeroPageX a) ((a.toNat + s.x.toNat) % 256) false ∧
    resolves (.zeroPageY a) ((a.toNat + s.y.toNat) % 256) false ∧
    resolves (.absolute w) w.toNat false ∧
    indexes (.absoluteX w) w.toNat s.x ∧
    indexes (.absoluteY w) w.toNat s.y ∧
    resolves (.indexedIndirect a) (pointer ((a.toNat + s.x.toNat) % 256)) false ∧
    indexes (.indirectIndexed a) (pointer a.toNat) s.y ∧
    ∀ o : MemOperand,
      let r := resolve o s
      load (.memory o) s = ⟨(memRead r.ea s).1, r.crossed, (memRead r.ea s).2⟩

/-- The CPU address map (rules R54, R56, R59): every address is in exactly one region, with the read and the write the
table gives it. That a write to the external device changes nothing of this machine is the spec's decision D18, and
that one read of it is one free value is log entry 5. -/
def Obligations.CpuAddressMap : Prop :=
  ∀ (a : Addr) (v : Byte) (s : State),
    (a.toNat < 0x2000 → memRead a s = (s.ram.read (a.toNat % 0x800), s) ∧
      memWrite a v s = { s with ram := s.ram.write (a.toNat % 0x800) v }) ∧
    (0x2000 ≤ a.toNat → a.toNat < 0x4000 →
      memRead a s = readPpuReg (BitVec.ofNat 3 a.toNat) s ∧ memWrite a v s = writePpuReg (BitVec.ofNat 3 a.toNat) v s) ∧
    (0x4000 ≤ a.toNat → a.toNat < 0x4018 →
      memRead a s = (Config.externalIo s.draws, { s with draws := s.draws + 1 })) ∧
    (0x4000 ≤ a.toNat → a.toNat < 0x4018 → a.toNat ≠ 0x4014 → memWrite a v s = s) ∧
    (a.toNat = 0x4014 → memWrite a v s = oamDma v s) ∧
    (0x4018 ≤ a.toNat → a.toNat < 0x4020 → memRead a s = (Config.cpuOpenBus, s) ∧ memWrite a v s = s) ∧
    (0x4020 ≤ a.toNat → memRead a s = (s.cart.getCpuAt a, s) ∧
      memWrite a v s = { s with cart := s.cart.setCpuAt a v })

/-- Mapper variant 0 (rules R75, R76, R78): PRG bank `a[14] mod P` at offset `a[13:0]`, so with two pages `$C000 + n` is
bank 1 offset `n`; the header flag selects the mirroring; a write to `$8000-$FFFF` changes nothing. Below that,
`$6000-$7FFF` is 8 KiB of work RAM where `MAPPER0_WRAM = present`, and every other address of `$4020-$7FFF` reads the
open-bus byte and ignores writes: the parameter is the spec's decision D31. The one CHR bank is at `$0000-$1FFF` of the
picture unit (rule R77), written only where the image declares no CHR page: that it is RAM then is decision D32. -/
def Obligations.MapperZero : Prop :=
  ∀ (c : Cartridge) (a : Addr) (v : Byte) (p : BitVec 14), c.mapper = .variant0 →
    (0x8000 ≤ a.toNat →
      c.translateCpu a = (a.toNat / 16384 % 2 % c.prgPages, a.toNat % 16384) ∧
      c.getCpuAt a = c.prg.read (16384 * (a.toNat / 16384 % 2 % c.prgPages) + a.toNat % 16384) ∧
      c.setCpuAt a v = c) ∧
    (0x6000 ≤ a.toNat → a.toNat < 0x8000 → c.mapper0Wram = true →
      c.getCpuAt a = c.wram.read (a.toNat - 0x6000) ∧
      c.setCpuAt a v = { c with wram := c.wram.write (a.toNat - 0x6000) v }) ∧
    (0x4020 ≤ a.toNat → a.toNat < 0x8000 → (a.toNat < 0x6000 ∨ c.mapper0Wram = false) →
      c.getCpuAt a = Config.cpuOpenBus ∧ c.setCpuAt a v = c) ∧
    (∀ n : Nat, c.prgPages = 2 → n < 16384 → c.translateCpu (BitVec.ofNat 16 (0xC000 + n)) = (1, n)) ∧
    (p.toNat < 0x2000 →
      c.translatePpu p = (0, p.toNat % 8192) ∧ c.getPpuAt p = c.chr.read p.toNat ∧
      c.setPpuAt p v = if c.chrPages = 0 then { c with chr := c.chr.write p.toNat v } else c) ∧
    c.mirroring = (if c.verticalFlag then .vertical else .horizontal)

/-- The serial-register mapper's loading of its registers (rule R79): a write with bit 7 set empties the shift register
and sets control bits 3:2; otherwise bit 0 enters, least significant first, and after five writes the five bits are
in the register that bits 14:13 of the fifth address select. That an emptied shift register holds 0 is log entry 15. -/
def Obligations.SerialRegisterLoad : Prop :=
  ∀ (c : Cartridge) (a0 a1 a2 a3 a4 : Addr) (v0 v1 v2 v3 v4 : Byte), c.mapper = .serial →
    0x8000 ≤ a0.toNat → 0x8000 ≤ a1.toNat → 0x8000 ≤ a2.toNat → 0x8000 ≤ a3.toNat → 0x8000 ≤ a4.toNat →
    (v0.getLsbD 7 = true →
      c.setCpuAt a0 v0 = { c with shift := 0, shiftCount := 0, control := c.control ||| 0x0C }) ∧
    (c.shiftCount = 0 → v0.getLsbD 7 = false → v1.getLsbD 7 = false → v2.getLsbD 7 = false → v3.getLsbD 7 = false →
      v4.getLsbD 7 = false →
      let value : BitVec 5 := BitVec.ofNat 5 ((v0.getLsbD 0).toNat + 2 * (v1.getLsbD 0).toNat + 4 * (v2.getLsbD 0).toNat +
        8 * (v3.getLsbD 0).toNat + 16 * (v4.getLsbD 0).toNat)
      let c' := ((((c.setCpuAt a0 v0).setCpuAt a1 v1).setCpuAt a2 v2).setCpuAt a3 v3).setCpuAt a4 v4
      let emptied : Cartridge := { c with shift := 0, shiftCount := 0 }
      c' =
        match a4.toNat / 8192 % 4 with
        | 0 => { emptied with control := value }
        | 1 => { emptied with chrBank0 := value }
        | 2 => { emptied with chrBank1 := value }
        | _ => { emptied with prgBank := value })

/-- The serial-register mapper's address spaces (rules R90 to R93): PRG in the three modes of control bits 3:2 (bit 4 of
the PRG register ignored, the spec's decision D30), CHR in the two modes of control bit 4, and the mirroring of control
bits 1:0. `$6000-$7FFF` is 8 KiB of work RAM, and `$4020-$5FFF` reads the open-bus byte and ignores writes (D30). -/
def Obligations.SerialBanks : Prop :=
  ∀ (c : Cartridge) (a : Addr) (v : Byte) (p : BitVec 14), c.mapper = .serial →
    let q := c.prgPages
    let n := c.prgBank.toNat % 16
    let upper := decide (0xC000 ≤ a.toNat)
    let k := if c.chrPages = 0 then 2 else 2 * c.chrPages
    let high := decide (0x1000 ≤ p.toNat)
    let bank :=
      match c.control.toNat / 4 % 4 with
      | 2 => if upper then n % q else 0
      | 3 => if upper then q - 1 else n % q
      | _ => (if upper then n / 2 * 2 + 1 else n / 2 * 2) % q
    let chrBank :=
      if c.control.toNat / 16 = 1 then (if high then c.chrBank1.toNat else c.chrBank0.toNat) % k
      else (if high then c.chrBank0.toNat / 2 * 2 + 1 else c.chrBank0.toNat / 2 * 2) % k
    (0x8000 ≤ a.toNat →
      c.translateCpu a = (bank, a.toNat % 16384) ∧
      c.getCpuAt a = c.prg.read (16384 * bank + a.toNat % 16384)) ∧
    (0x6000 ≤ a.toNat → a.toNat < 0x8000 →
      c.getCpuAt a = c.wram.read (a.toNat - 0x6000) ∧
      c.setCpuAt a v = { c with wram := c.wram.write (a.toNat - 0x6000) v }) ∧
    (0x4020 ≤ a.toNat → a.toNat < 0x6000 → c.getCpuAt a = Config.cpuOpenBus ∧ c.setCpuAt a v = c) ∧
    (p.toNat < 0x2000 →
      c.translatePpu p = (chrBank, p.toNat % 4096) ∧
      c.getPpuAt p = c.chr.read (4096 * chrBank + p.toNat % 4096) ∧
      c.setPpuAt p v =
        if c.chrPages = 0 then { c with chr := c.chr.write (4096 * chrBank + p.toNat % 4096) v } else c) ∧
    c.mirroring =
      (match c.control.toNat % 4 with
        | 0 => .singleLower
        | 1 => .singleUpper
        | 2 => .vertical
        | _ => .horizontal)

/-- OAM DMA (rule R87): 256 steps in increasing `i`, each an ordinary read of `{v, i}` and a store at `OAMADDR + i`
modulo 256, for every source page. From a page of internal RAM or of cartridge space every OAM byte is replaced and
nothing else changes, `OAMADDR` included; page `$40` also holds the external device, whose 24 reads are free values, and
the undecoded range. The whole copy inside the write is the spec's decision D19; that one read of the external device is
one free value is the model's choice, log entry 5. -/
def Obligations.OamDmaCopiesPage : Prop :=
  (∀ (s : State) (v : Byte), ∃ u : Nat → State, u 0 = s ∧ oamDma v s = u 256 ∧ ∀ i : Nat, i < 256 →
    let r := memRead (BitVec.ofNat 16 (256 * v.toNat + i)) (u i)
    u (i + 1) = { r.2 with ppu := { r.2.ppu with
      oam := r.2.ppu.oam.write ((r.2.ppu.oamAddr.toNat + i) % 256) r.1 } }) ∧
  ∀ (s : State) (v : Byte), s.wf = true →
    let copied := fun i : Nat => (oamDma v s).ppu.oam.read ((s.ppu.oamAddr.toNat + i) % 256)
    let only := fun t : State => oamDma v s = { t with ppu := { t.ppu with oam := (oamDma v s).ppu.oam } }
    (v.toNat < 0x20 →
      (∀ i : Nat, i < 256 → copied i = s.ram.read ((256 * v.toNat + i) % 2048)) ∧ only s) ∧
    (0x41 ≤ v.toNat →
      (∀ i : Nat, i < 256 → copied i = s.cart.getCpuAt (BitVec.ofNat 16 (256 * v.toNat + i))) ∧ only s) ∧
    (v.toNat = 0x40 →
      (∀ i : Nat, i < 256 → copied i =
        if i < 0x18 then Config.externalIo (s.draws + i)
        else if i < 0x20 then Config.cpuOpenBus
        else s.cart.getCpuAt (BitVec.ofNat 16 (0x4000 + i))) ∧
      only { s with draws := s.draws + 0x18 })

/-! ### The picture unit -/

/-- The picture unit's registers beside Status and Data. Scroll and Address (rules R409, R410): two writes each, paired
by the shared toggle `w`, into the fields of `t` and into fine X, and the second Address write loads `v`. Control (rule
R404) also copies its low two bits into `t`; Mask and OAM address (rules R405, R407) store; a write to Status stores
nothing but the I/O latch (R403). OAM data (rule R408): a write stores every bit at `OAMADDR` and moves it on, a read
gives the byte and changes nothing. A read of registers 0, 1, 3, 5 and 6 gives an open-bus byte (rule R413, by the
parameter of the spec's decision D24). Values are given as numbers over the bit fields. That none of this depends on
rendering or on the time since power-on is the spec's decisions D35 and D38; that a drawn byte is `Config.ppuOpenBus` of
the draw counter is the model's choice, log entry 5. -/
def Obligations.ScrollAndAddressWrites : Prop :=
  ∀ (s : State) (d : Byte),
    let p : Ppu := { s.ppu with ioLatch := d }
    let t := p.t.toNat
    (p.w = false →
      writePpuReg 5 d s = { s with ppu := { p with
        t := BitVec.ofNat 15 (t / 32 * 32 + d.toNat / 8), x := BitVec.ofNat 3 d.toNat, w := true } }) ∧
    (p.w = true →
      writePpuReg 5 d s = { s with ppu := { p with
        t := BitVec.ofNat 15 (4096 * (d.toNat % 8) + t % 4096 / 1024 * 1024 + 32 * (d.toNat / 8) + t % 32)
        w := false } }) ∧
    (p.w = false →
      writePpuReg 6 d s = { s with ppu := { p with
        t := BitVec.ofNat 15 (256 * (d.toNat % 64) + t % 256), w := true } }) ∧
    (p.w = true →
      writePpuReg 6 d s = { s with ppu := { p with
        t := BitVec.ofNat 15 (t / 256 * 256 + d.toNat)
        v := BitVec.ofNat 15 (t / 256 * 256 + d.toNat)
        w := false } }) ∧
    writePpuReg 0 d s = { s with ppu := { p with
      ctrl := d, t := BitVec.ofNat 15 (t / 4096 * 4096 + 1024 * (d.toNat % 4) + t % 1024) } } ∧
    writePpuReg 1 d s = { s with ppu := { p with mask := d } } ∧
    writePpuReg 2 d s = { s with ppu := p } ∧
    writePpuReg 3 d s = { s with ppu := { p with oamAddr := d } } ∧
    (let o := (writePpuReg 4 d s).ppu.oam
     writePpuReg 4 d s = { s with ppu := { p with oam := o, oamAddr := BitVec.ofNat 8 (p.oamAddr.toNat + 1) } } ∧
     (s.wf = true → ∀ k : Nat, o.read k = if k = p.oamAddr.toNat then d else p.oam.read k)) ∧
    readPpuReg 4 s = (s.ppu.oam.read s.ppu.oamAddr.toNat, s) ∧
    ∀ r ∈ ([0, 1, 3, 5, 6] : List (BitVec 3)),
      (s.params.ppuOpenBus = .latch → readPpuReg r s = (s.ppu.ioLatch, s)) ∧
      (s.params.ppuOpenBus = .draw → readPpuReg r s = (Config.ppuOpenBus s.draws, { s with draws := s.draws + 1 }))

/-- A read of Status (rule R406): bits 7 to 5 are VBlank, sprite-zero hit and sprite overflow as they were, bits 4 to 0
are the picture unit's open-bus bits; then VBlank and the write toggle are cleared, and a read made while the next
tick is 82182 sets the suppression latch. Every mirror of `$2002` reads so. That the open-bus bits follow the
parameter is the spec's decision D24, and the window at 82182 its decision D28 (rule R418); that the bits of one drawn
read are the low bits of `Config.ppuOpenBus` of the draw counter is the model's choice, log entry 5. -/
def Obligations.StatusRead : Prop :=
  ∀ (s : State) (a : Addr), 0x2000 ≤ a.toNat → a.toNat < 0x4000 → a.toNat % 8 = 2 →
    let r := memRead a s
    r.1.getLsbD 7 = s.ppu.vblank ∧ r.1.getLsbD 6 = s.ppu.sprite0Hit ∧ r.1.getLsbD 5 = s.ppu.spriteOverflow ∧
    (s.params.ppuOpenBus = .latch → r.1.toNat % 32 = s.ppu.ioLatch.toNat % 32) ∧
    (s.params.ppuOpenBus = .draw → r.1.toNat % 32 = (Config.ppuOpenBus s.draws).toNat % 32) ∧
    r.2 = { s with
      draws := if s.params.ppuOpenBus = .draw then s.draws + 1 else s.draws
      ppu := { s.ppu with
        vblank := false, w := false, suppress := s.ppu.suppress || decide (s.ppu.tick = 82182) } }

/-- The picture unit's address space and the Data register (rules R69 to R71, R411, R412, R414). Below `$2000` an
address is the mapper's; `$2000-$3EFF` is the nametable cell that bits 11 to 0 and the mirroring give, so that `$3000`
and up mirror `$2000` (the spec's decision D25); above, the palette cell of bits 4 to 0, every multiple of 4 being cell
0. A Data write stores at `v` and nowhere else, and moves `v` on by 1 or 32; a read below the palette returns the buffer
and refills it from `v`, and a read in the palette returns the cell in bits 5 to 0 and fills the buffer from the
nametable byte underneath; its bits 7 and 6 are open-bus bits (rule R413), of the I/O latch or of one drawn byte. The
increment being the same while rendering is the spec's decision D42, the six-bit palette cell D26, the parameter of the
open-bus bits D24; that the two drawn bits are the high bits of `Config.ppuOpenBus` of the draw counter is the model's
choice, log entry 5. -/
def Obligations.DataRegister : Prop :=
  ∀ (s : State) (d : Byte),
    let p := s.ppu
    let a : BitVec 14 := BitVec.ofNat 14 p.v.toNat
    let next : BitVec 15 := p.v + (if p.ctrl.getLsbD 2 then 32 else 1)
    let r := readPpuReg 7 s
    let w := writePpuReg 7 d s
    let stored : Ppu := { p with ioLatch := d, v := next }
    let ntCell := fun n : Nat =>
      match s.cart.mirroring with
      | .horizontal => 1024 * (n / 2048 % 2) + n % 1024
      | .vertical => 1024 * (n / 1024 % 2) + n % 1024
      | .singleLower => n % 1024
      | .singleUpper => 1024 + n % 1024
    let palCell := fun n : Nat => if n % 4 = 0 then 0 else n % 32
    (∀ x : BitVec 14,
      (x.toNat < 0x2000 → ppuRead s.cart p x = s.cart.getPpuAt x) ∧
      (0x2000 ≤ x.toNat → x.toNat < 0x3F00 → ppuRead s.cart p x = p.ntRam.read (ntCell x.toNat)) ∧
      (0x3F00 ≤ x.toNat → (ppuRead s.cart p x).toNat = (p.pal.read (palCell x.toNat)).toNat)) ∧
    (a.toNat < 0x3F00 →
      r = (p.readBuffer, { s with ppu := { p with readBuffer := ppuRead s.cart p a, v := next } })) ∧
    (0x3F00 ≤ a.toNat →
      r.1.toNat % 64 = (p.pal.read (palCell a.toNat)).toNat ∧
      (s.params.ppuOpenBus = .latch → r.1.toNat / 64 = p.ioLatch.toNat / 64) ∧
      (s.params.ppuOpenBus = .draw → r.1.toNat / 64 = (Config.ppuOpenBus s.draws).toNat / 64) ∧
      r.2 = { s with
        draws := if s.params.ppuOpenBus = .draw then s.draws + 1 else s.draws
        ppu := { p with readBuffer := p.ntRam.read (ntCell a.toNat), v := next } }) ∧
    (a.toNat < 0x2000 → w = { s with cart := s.cart.setPpuAt a d, ppu := stored }) ∧
    (0x2000 ≤ a.toNat → a.toNat < 0x3F00 →
      w = { s with ppu := { stored with ntRam := p.ntRam.write (ntCell a.toNat) d } }) ∧
    (0x3F00 ≤ a.toNat →
      w = { s with ppu := { stored with pal := p.pal.write (palCell a.toNat) (BitVec.ofNat 6 d.toNat) } }) ∧
    (s.wf = true → 0x2000 ≤ a.toNat → a.toNat < 0x3F00 → ppuRead w.cart w.ppu a = d) ∧
    (s.wf = true → 0x3F00 ≤ a.toNat → (ppuRead w.cart w.ppu a).toNat = d.toNat % 64) ∧
    (s.wf = true → a.toNat < 0x2000 → ppuRead w.cart w.ppu a = if s.cart.chrPages = 0 then d else ppuRead s.cart p a)

/-- VBlank, NMI and the two sprite flags in a tick (rules R416, R417, R419, R420, R431, R436): at tick 82182 VBlank is
set unless suppressed and the latch is consumed; at tick 89002 it is cleared; the NMI output is VBlank one tick late and
NMI-enable, and its rising edge sets the CPU's latch, which no tick clears. Overflow is set at cycle 257 of a visible
line exactly when nine sprites or more are in range, and sprite-zero hit exactly in a tick that outputs a pixel where
the first opaque slot is slot 0 holding sprite 0 and the background is opaque too, whichever of the two wins (`hitAt`);
both are clear after tick 89001 and otherwise stay set. The one-tick delay and the edge are the spec's decision D12; that overflow counts the ninth sprite
and clears at 89001 is D27; that evaluation is one step at cycle 257 is D37; that the pixel uses the shifters as the
tick's own shift leaves them is D44. A tick changes nothing of the machine but the picture unit and that latch (rule
R421). -/
def Obligations.VblankAndNmi : Prop :=
  ∀ s : State,
    let p := s.ppu
    let q := (ppuTick s).ppu
    let line := p.tick / 341
    let c := p.tick % 341
    let height := if p.ctrl.getLsbD 5 then 16 else 8
    let inRange := fun n : Nat =>
      decide ((p.oam.read (4 * n)).toNat ≤ line ∧ line < (p.oam.read (4 * n)).toNat + height)
    let evaluates := (p.mask.getLsbD 3 || p.mask.getLsbD 4) && decide (line < 240 ∧ c = 257)
    q.vblank = (if p.tick = 82182 then (p.vblank || !p.suppress) else if p.tick = 89002 then false else p.vblank) ∧
    q.suppress = (if p.tick = 82182 then false else p.suppress) ∧
    q.vblankDelayed = q.vblank ∧
    q.nmiOut = (p.vblankDelayed && p.ctrl.getLsbD 7) ∧
    (ppuTick s).nmiPending = (s.nmiPending || (q.nmiOut && !p.nmiOut)) ∧
    ppuTick s = { s with ppu := q, nmiPending := (ppuTick s).nmiPending } ∧
    q.spriteOverflow = (if p.tick = 89001 then false
      else p.spriteOverflow || (evaluates && decide (9 ≤ (List.range 64).countP inRange))) ∧
    q.sprite0Hit = (if p.tick = 89001 then false
      else p.sprite0Hit || (decide (line < 240 ∧ 1 ≤ c ∧ c ≤ 256) && hitAt p c))

/-- The length of a frame. In every state a tick moves the position on by one, wraps to 0 after tick 89341, and wraps to 0
after tick 89340 of an odd frame whose Mask enables rendering at that tick; the parity flips at a wrap and at no other
tick. So from tick 0, `n` ticks later the unit is at tick `n` for every `n` up to 89340; then an odd frame with rendering
enabled starts again after 89341 ticks, and every other frame after 89342. When the skip is sampled is the spec's
decision D39. -/
def Obligations.FrameLength : Prop :=
  (∀ s : State,
    let p := s.ppu
    let q := (ppuTick s).ppu
    let wraps := p.tick = 89341 ∨
      p.tick = 89340 ∧ p.oddFrame = true ∧ (p.mask.getLsbD 3 = true ∨ p.mask.getLsbD 4 = true)
    q.tick = (if wraps then 0 else p.tick + 1) ∧ q.oddFrame = (if wraps then !p.oddFrame else p.oddFrame)) ∧
  ∀ (s : State) (n : Nat), s.ppu.tick = 0 →
    let later := (Nat.iterate ppuTick n s).ppu
    let skips := s.ppu.oddFrame && (s.ppu.mask.getLsbD 3 || s.ppu.mask.getLsbD 4)
    (n ≤ 89340 → later.tick = n ∧ later.oddFrame = s.ppu.oddFrame) ∧
    (skips = true → n = 89341 → later.tick = 0 ∧ later.oddFrame = false) ∧
    (skips = false → n = 89341 → later.tick = 89341 ∧ later.oddFrame = s.ppu.oddFrame) ∧
    (skips = false → n = 89342 → later.tick = 0 ∧ later.oddFrame = !s.ppu.oddFrame)

/-- How `v` moves while rendering (rules R425 to R428): the coarse X increment every eight cycles, the Y increment at
cycle 256, the horizontal copy at 257, the vertical copy at 280 to 304 of the pre-render line; on the lines that are no
render line no tick moves it (rule R421, step 2); and what each does to the fields of `v`, given as numbers. -/
def Obligations.ScrollMovement : Prop :=
  (∀ s : State, (s.ppu.mask.getLsbD 3 || s.ppu.mask.getLsbD 4) = true →
    s.ppu.tick / 341 < 240 ∨ s.ppu.tick / 341 = 261 →
    let c := s.ppu.tick % 341
    let v := s.ppu.v
    let v1 := if (1 ≤ c ∧ c ≤ 256 ∨ 321 ≤ c ∧ c ≤ 336) ∧ c % 8 = 0 then incCoarseX v else v
    (ppuTick s).ppu.v =
      if c = 256 then incY v1
      else if c = 257 then copyHorizontal v1 s.ppu.t
      else if s.ppu.tick / 341 = 261 ∧ 280 ≤ c ∧ c ≤ 304 then copyVertical v1 s.ppu.t
      else v1) ∧
  (∀ s : State, (s.ppu.mask.getLsbD 3 || s.ppu.mask.getLsbD 4) = true →
    240 ≤ s.ppu.tick / 341 → s.ppu.tick / 341 ≠ 261 → (ppuTick s).ppu.v = s.ppu.v) ∧
  (∀ v t : BitVec 15,
    let x := v.toNat % 32
    let y := v.toNat / 32 % 32
    let n := v.toNat / 1024 % 4
    let f := v.toNat / 4096
    let addr := fun f n y x : Nat => 4096 * f + 1024 * n + 32 * y + x
    (incCoarseX v).toNat = (if x = 31 then addr f (if n % 2 = 0 then n + 1 else n - 1) y 0 else addr f n y (x + 1)) ∧
    (incY v).toNat =
      (if f < 7 then addr (f + 1) n y x
        else if y = 29 then addr 0 (if n < 2 then n + 2 else n - 2) 0 x
        else if y = 31 then addr 0 n 0 x
        else addr 0 n (y + 1) x) ∧
    (copyHorizontal v t).toNat = addr f (n / 2 * 2 + t.toNat / 1024 % 2) y (t.toNat % 32) ∧
    (copyVertical v t).toNat = addr (t.toNat / 4096) (t.toNat / 2048 % 2 * 2 + n % 2) (t.toNat / 32 % 32) x)

/-- What a tick does to the picture. While rendering is disabled (rule R415), it leaves the scroll registers, the
latches, the shifters, the sprite buffer and slots, OAM, nametable RAM and palette RAM as they were, and writes the
backdrop colour to the visible pixel of its position and no other frame-buffer cell. While it is enabled, the tick at
cycle `c` of a render line shifts and reloads the background shifters (R422), makes the fetch of the 8-cycle pattern
(R423, R424), evaluates the sprites at cycle 257 (R430) and fills slot `k` at cycle `264 + 8k` (R432), and a tick at a
visible position writes the pixel of its layers (`pixelAt`; R429, R433 to R435) and no other frame-buffer cell; on the
other lines none of this happens. That the colour with rendering off is `PAL[0]` is the spec's decision D43, the sprite
schedule D37, the order within a tick D44. That the backdrop is not masked when Mask bit 0 asks for greyscale is the
model's reading of rule R434, log entry 14; that greyscale masks the stored colour with rendering on is its choice
between rule R434 and SD16, log entry 20; that a sprite's row is an integer whatever the height then is log entry
13. -/
def Obligations.RenderingDisabled : Prop :=
  (∀ s : State, s.wf = true → s.ppu.mask.getLsbD 3 = false → s.ppu.mask.getLsbD 4 = false →
    let p := s.ppu
    let q := (ppuTick s).ppu
    q.v = p.v ∧ q.t = p.t ∧ q.x = p.x ∧ q.w = p.w ∧ q.readBuffer = p.readBuffer ∧
    q.ntLatch = p.ntLatch ∧ q.atLatch = p.atLatch ∧ q.ptLoLatch = p.ptLoLatch ∧ q.ptHiLatch = p.ptHiLatch ∧
    q.bgLo = p.bgLo ∧ q.bgHi = p.bgHi ∧ q.atLo = p.atLo ∧ q.atHi = p.atHi ∧
    q.sec = p.sec ∧ q.secHas0 = p.secHas0 ∧ q.slots = p.slots ∧ q.sprCount = p.sprCount ∧ q.sprHas0 = p.sprHas0 ∧
    q.oam = p.oam ∧ q.ntRam = p.ntRam ∧ q.pal = p.pal ∧ q.oamAddr = p.oamAddr ∧ q.ctrl = p.ctrl ∧ q.mask = p.mask ∧
    q.ioLatch = p.ioLatch ∧
    ∀ k : Nat, q.frame.read k =
      if p.tick / 341 < 240 ∧ 1 ≤ p.tick % 341 ∧ p.tick % 341 ≤ 256 ∧ k = 256 * (p.tick / 341) + (p.tick % 341 - 1)
      then p.pal.read 0 else p.frame.read k) ∧
  (∀ s : State, s.wf = true → (s.ppu.mask.getLsbD 3 || s.ppu.mask.getLsbD 4) = true →
    let p := s.ppu
    let q := (ppuTick s).ppu
    let line := p.tick / 341
    let c := p.tick % 341
    let renders := line < 240 ∨ line = 261
    let read := fun a : Int => ppuRead s.cart p (BitVec.ofInt 14 a)
    -- the shifters
    let shifts := renders ∧ (2 ≤ c ∧ c ≤ 257 ∨ 322 ≤ c ∧ c ≤ 337)
    let reloads := renders ∧ (9 ≤ c ∧ c ≤ 257 ∧ c % 8 = 1 ∨ c = 329 ∨ c = 337)
    let shifter := fun (r : BitVec 16) (low : Nat) =>
      let r1 := if shifts then 2 * r.toNat % 65536 else r.toNat
      BitVec.ofNat 16 (if reloads then r1 / 256 * 256 + low else r1)
    -- the fetches
    let fetches := fun k : Nat => renders ∧ (1 ≤ c ∧ c ≤ 256 ∨ 321 ≤ c ∧ c ≤ 336) ∧ (c - 1) % 8 = k
    let v := p.v.toNat
    let attrByte := (read (0x23C0 + 1024 * (v / 1024 % 4) + 8 * (v / 128 % 8) + v / 4 % 8 : Nat)).toNat
    let tile := (if p.ctrl.getLsbD 4 then 0x1000 else 0) + 16 * p.ntLatch.toNat + v / 4096
    -- the sprites
    let sprite := fun n : Nat => SpriteEntry.mk (p.oam.read (4 * n)) (p.oam.read (4 * n + 1)) (p.oam.read (4 * n + 2))
      (p.oam.read (4 * n + 3))
    let height := if p.ctrl.getLsbD 5 then 16 else 8
    let inRange := fun n : Nat => decide ((sprite n).y.toNat ≤ line ∧ line < (sprite n).y.toNat + height)
    let evaluates := renders ∧ c = 257
    let slotOf := fun e : SpriteEntry =>
      let row : Int := (if e.attr.getLsbD 7 then height - 1 - ((line : Int) - e.y.toNat) else (line : Int) - e.y.toNat)
      let at0 : Int :=
        if p.ctrl.getLsbD 5 then
          (if e.tile.getLsbD 0 then 0x1000 else 0) + 16 * (e.tile.toNat / 2 * 2 + (if 8 ≤ row then 1 else 0)) + row % 8
        else (if p.ctrl.getLsbD 3 then 0x1000 else 0) + 16 * e.tile.toNat + row
      let plane := fun b : Byte => if e.attr.getLsbD 6 then b.reverse else b
      SpriteSlot.mk (plane (read at0)) (plane (read (at0 + 8))) e.attr e.xpos
    q.bgLo = shifter p.bgLo p.ptLoLatch.toNat ∧ q.bgHi = shifter p.bgHi p.ptHiLatch.toNat ∧
    q.atLo = shifter p.atLo (255 * (p.atLatch.getLsbD 0).toNat) ∧
    q.atHi = shifter p.atHi (255 * (p.atLatch.getLsbD 1).toNat) ∧
    q.ntLatch = (if fetches 0 then read (0x2000 + v % 4096 : Nat) else p.ntLatch) ∧
    q.atLatch = (if fetches 2 then BitVec.ofNat 2 (attrByte / 2 ^ (4 * (v / 64 % 2) + 2 * (v / 2 % 2))) else p.atLatch) ∧
    q.ptLoLatch = (if fetches 4 then read tile else p.ptLoLatch) ∧
    q.ptHiLatch = (if fetches 6 then read (tile + 8 : Nat) else p.ptHiLatch) ∧
    q.sec = (if evaluates then (if line < 240 then (((List.range 64).filter inRange).map sprite).take 8 else [])
      else p.sec) ∧
    q.secHas0 = (if evaluates then decide (line < 240) && inRange 0 else p.secHas0) ∧
    (∀ k : Fin 8, q.slots[k.val] =
      if renders ∧ c = 264 + 8 * k.val then
        (match p.sec[k.val]? with
        | some e => slotOf e
        | none => { p.slots[k.val] with lo := 0, hi := 0 })
      else p.slots[k.val]) ∧
    q.sprCount = (if renders ∧ c = 264 then p.sec.length else p.sprCount) ∧
    q.sprHas0 = (if renders ∧ c = 264 then p.secHas0 else p.sprHas0) ∧
    q.t = p.t ∧ q.x = p.x ∧ q.w = p.w ∧ q.readBuffer = p.readBuffer ∧ q.ctrl = p.ctrl ∧ q.mask = p.mask ∧
    q.ioLatch = p.ioLatch ∧
    q.oam = p.oam ∧ q.oamAddr = p.oamAddr ∧ q.ntRam = p.ntRam ∧ q.pal = p.pal ∧
    ∀ k : Nat, q.frame.read k =
      if line < 240 ∧ 1 ≤ c ∧ c ≤ 256 ∧ k = 256 * line + (c - 1) then pixelAt p c else p.frame.read k)

end Statements
end

