-- ==== Sys2Proof/Laws/State.lean ====
section
/-! SUPPORT. What each update of Machine/Setters.lean and Machine/Ops.lean leaves in each field: one lemma per field per
update, so that no later proof unfolds a record update. -/

namespace Sys2Proof.Machine

@[simp] theorem State.setA_a (s : State) (v : Byte) : (s.setA v).a = v := rfl
@[simp] theorem State.setA_x (s : State) (v : Byte) : (s.setA v).x = s.x := rfl
@[simp] theorem State.setA_y (s : State) (v : Byte) : (s.setA v).y = s.y := rfl
@[simp] theorem State.setA_sp (s : State) (v : Byte) : (s.setA v).sp = s.sp := rfl
@[simp] theorem State.setA_pc (s : State) (v : Byte) : (s.setA v).pc = s.pc := rfl
@[simp] theorem State.setA_flags (s : State) (v : Byte) : (s.setA v).flags = s.flags := rfl
@[simp] theorem State.setA_cycles (s : State) (v : Byte) : (s.setA v).cycles = s.cycles := rfl
@[simp] theorem State.setA_remaining (s : State) (v : Byte) : (s.setA v).remaining = s.remaining := rfl
@[simp] theorem State.setA_nmiPending (s : State) (v : Byte) : (s.setA v).nmiPending = s.nmiPending := rfl
@[simp] theorem State.setA_resetPending (s : State) (v : Byte) : (s.setA v).resetPending = s.resetPending := rfl
@[simp] theorem State.setA_irqLine (s : State) (v : Byte) : (s.setA v).irqLine = s.irqLine := rfl
@[simp] theorem State.setA_halted (s : State) (v : Byte) : (s.setA v).halted = s.halted := rfl
@[simp] theorem State.setA_refused (s : State) (v : Byte) : (s.setA v).refused = s.refused := rfl
@[simp] theorem State.setA_ram (s : State) (v : Byte) : (s.setA v).ram = s.ram := rfl
@[simp] theorem State.setA_cart (s : State) (v : Byte) : (s.setA v).cart = s.cart := rfl
@[simp] theorem State.setA_ppu (s : State) (v : Byte) : (s.setA v).ppu = s.ppu := rfl
@[simp] theorem State.setA_params (s : State) (v : Byte) : (s.setA v).params = s.params := rfl
@[simp] theorem State.setA_draws (s : State) (v : Byte) : (s.setA v).draws = s.draws := rfl

@[simp] theorem State.setX_a (s : State) (v : Byte) : (s.setX v).a = s.a := rfl
@[simp] theorem State.setX_x (s : State) (v : Byte) : (s.setX v).x = v := rfl
@[simp] theorem State.setX_y (s : State) (v : Byte) : (s.setX v).y = s.y := rfl
@[simp] theorem State.setX_sp (s : State) (v : Byte) : (s.setX v).sp = s.sp := rfl
@[simp] theorem State.setX_pc (s : State) (v : Byte) : (s.setX v).pc = s.pc := rfl
@[simp] theorem State.setX_flags (s : State) (v : Byte) : (s.setX v).flags = s.flags := rfl
@[simp] theorem State.setX_cycles (s : State) (v : Byte) : (s.setX v).cycles = s.cycles := rfl
@[simp] theorem State.setX_remaining (s : State) (v : Byte) : (s.setX v).remaining = s.remaining := rfl
@[simp] theorem State.setX_nmiPending (s : State) (v : Byte) : (s.setX v).nmiPending = s.nmiPending := rfl
@[simp] theorem State.setX_resetPending (s : State) (v : Byte) : (s.setX v).resetPending = s.resetPending := rfl
@[simp] theorem State.setX_irqLine (s : State) (v : Byte) : (s.setX v).irqLine = s.irqLine := rfl
@[simp] theorem State.setX_halted (s : State) (v : Byte) : (s.setX v).halted = s.halted := rfl
@[simp] theorem State.setX_refused (s : State) (v : Byte) : (s.setX v).refused = s.refused := rfl
@[simp] theorem State.setX_ram (s : State) (v : Byte) : (s.setX v).ram = s.ram := rfl
@[simp] theorem State.setX_cart (s : State) (v : Byte) : (s.setX v).cart = s.cart := rfl
@[simp] theorem State.setX_ppu (s : State) (v : Byte) : (s.setX v).ppu = s.ppu := rfl
@[simp] theorem State.setX_params (s : State) (v : Byte) : (s.setX v).params = s.params := rfl
@[simp] theorem State.setX_draws (s : State) (v : Byte) : (s.setX v).draws = s.draws := rfl

@[simp] theorem State.setY_a (s : State) (v : Byte) : (s.setY v).a = s.a := rfl
@[simp] theorem State.setY_x (s : State) (v : Byte) : (s.setY v).x = s.x := rfl
@[simp] theorem State.setY_y (s : State) (v : Byte) : (s.setY v).y = v := rfl
@[simp] theorem State.setY_sp (s : State) (v : Byte) : (s.setY v).sp = s.sp := rfl
@[simp] theorem State.setY_pc (s : State) (v : Byte) : (s.setY v).pc = s.pc := rfl
@[simp] theorem State.setY_flags (s : State) (v : Byte) : (s.setY v).flags = s.flags := rfl
@[simp] theorem State.setY_cycles (s : State) (v : Byte) : (s.setY v).cycles = s.cycles := rfl
@[simp] theorem State.setY_remaining (s : State) (v : Byte) : (s.setY v).remaining = s.remaining := rfl
@[simp] theorem State.setY_nmiPending (s : State) (v : Byte) : (s.setY v).nmiPending = s.nmiPending := rfl
@[simp] theorem State.setY_resetPending (s : State) (v : Byte) : (s.setY v).resetPending = s.resetPending := rfl
@[simp] theorem State.setY_irqLine (s : State) (v : Byte) : (s.setY v).irqLine = s.irqLine := rfl
@[simp] theorem State.setY_halted (s : State) (v : Byte) : (s.setY v).halted = s.halted := rfl
@[simp] theorem State.setY_refused (s : State) (v : Byte) : (s.setY v).refused = s.refused := rfl
@[simp] theorem State.setY_ram (s : State) (v : Byte) : (s.setY v).ram = s.ram := rfl
@[simp] theorem State.setY_cart (s : State) (v : Byte) : (s.setY v).cart = s.cart := rfl
@[simp] theorem State.setY_ppu (s : State) (v : Byte) : (s.setY v).ppu = s.ppu := rfl
@[simp] theorem State.setY_params (s : State) (v : Byte) : (s.setY v).params = s.params := rfl
@[simp] theorem State.setY_draws (s : State) (v : Byte) : (s.setY v).draws = s.draws := rfl

@[simp] theorem State.setSp_a (s : State) (v : Byte) : (s.setSp v).a = s.a := rfl
@[simp] theorem State.setSp_x (s : State) (v : Byte) : (s.setSp v).x = s.x := rfl
@[simp] theorem State.setSp_y (s : State) (v : Byte) : (s.setSp v).y = s.y := rfl
@[simp] theorem State.setSp_sp (s : State) (v : Byte) : (s.setSp v).sp = v := rfl
@[simp] theorem State.setSp_pc (s : State) (v : Byte) : (s.setSp v).pc = s.pc := rfl
@[simp] theorem State.setSp_flags (s : State) (v : Byte) : (s.setSp v).flags = s.flags := rfl
@[simp] theorem State.setSp_cycles (s : State) (v : Byte) : (s.setSp v).cycles = s.cycles := rfl
@[simp] theorem State.setSp_remaining (s : State) (v : Byte) : (s.setSp v).remaining = s.remaining := rfl
@[simp] theorem State.setSp_nmiPending (s : State) (v : Byte) : (s.setSp v).nmiPending = s.nmiPending := rfl
@[simp] theorem State.setSp_resetPending (s : State) (v : Byte) : (s.setSp v).resetPending = s.resetPending := rfl
@[simp] theorem State.setSp_irqLine (s : State) (v : Byte) : (s.setSp v).irqLine = s.irqLine := rfl
@[simp] theorem State.setSp_halted (s : State) (v : Byte) : (s.setSp v).halted = s.halted := rfl
@[simp] theorem State.setSp_refused (s : State) (v : Byte) : (s.setSp v).refused = s.refused := rfl
@[simp] theorem State.setSp_ram (s : State) (v : Byte) : (s.setSp v).ram = s.ram := rfl
@[simp] theorem State.setSp_cart (s : State) (v : Byte) : (s.setSp v).cart = s.cart := rfl
@[simp] theorem State.setSp_ppu (s : State) (v : Byte) : (s.setSp v).ppu = s.ppu := rfl
@[simp] theorem State.setSp_params (s : State) (v : Byte) : (s.setSp v).params = s.params := rfl
@[simp] theorem State.setSp_draws (s : State) (v : Byte) : (s.setSp v).draws = s.draws := rfl

@[simp] theorem State.setPc_a (s : State) (v : Addr) : (s.setPc v).a = s.a := rfl
@[simp] theorem State.setPc_x (s : State) (v : Addr) : (s.setPc v).x = s.x := rfl
@[simp] theorem State.setPc_y (s : State) (v : Addr) : (s.setPc v).y = s.y := rfl
@[simp] theorem State.setPc_sp (s : State) (v : Addr) : (s.setPc v).sp = s.sp := rfl
@[simp] theorem State.setPc_pc (s : State) (v : Addr) : (s.setPc v).pc = v := rfl
@[simp] theorem State.setPc_flags (s : State) (v : Addr) : (s.setPc v).flags = s.flags := rfl
@[simp] theorem State.setPc_cycles (s : State) (v : Addr) : (s.setPc v).cycles = s.cycles := rfl
@[simp] theorem State.setPc_remaining (s : State) (v : Addr) : (s.setPc v).remaining = s.remaining := rfl
@[simp] theorem State.setPc_nmiPending (s : State) (v : Addr) : (s.setPc v).nmiPending = s.nmiPending := rfl
@[simp] theorem State.setPc_resetPending (s : State) (v : Addr) : (s.setPc v).resetPending = s.resetPending := rfl
@[simp] theorem State.setPc_irqLine (s : State) (v : Addr) : (s.setPc v).irqLine = s.irqLine := rfl
@[simp] theorem State.setPc_halted (s : State) (v : Addr) : (s.setPc v).halted = s.halted := rfl
@[simp] theorem State.setPc_refused (s : State) (v : Addr) : (s.setPc v).refused = s.refused := rfl
@[simp] theorem State.setPc_ram (s : State) (v : Addr) : (s.setPc v).ram = s.ram := rfl
@[simp] theorem State.setPc_cart (s : State) (v : Addr) : (s.setPc v).cart = s.cart := rfl
@[simp] theorem State.setPc_ppu (s : State) (v : Addr) : (s.setPc v).ppu = s.ppu := rfl
@[simp] theorem State.setPc_params (s : State) (v : Addr) : (s.setPc v).params = s.params := rfl
@[simp] theorem State.setPc_draws (s : State) (v : Addr) : (s.setPc v).draws = s.draws := rfl

@[simp] theorem State.setFlags_a (s : State) (f : Flags) : (s.setFlags f).a = s.a := rfl
@[simp] theorem State.setFlags_x (s : State) (f : Flags) : (s.setFlags f).x = s.x := rfl
@[simp] theorem State.setFlags_y (s : State) (f : Flags) : (s.setFlags f).y = s.y := rfl
@[simp] theorem State.setFlags_sp (s : State) (f : Flags) : (s.setFlags f).sp = s.sp := rfl
@[simp] theorem State.setFlags_pc (s : State) (f : Flags) : (s.setFlags f).pc = s.pc := rfl
@[simp] theorem State.setFlags_flags (s : State) (f : Flags) : (s.setFlags f).flags = f := rfl
@[simp] theorem State.setFlags_cycles (s : State) (f : Flags) : (s.setFlags f).cycles = s.cycles := rfl
@[simp] theorem State.setFlags_remaining (s : State) (f : Flags) : (s.setFlags f).remaining = s.remaining := rfl
@[simp] theorem State.setFlags_nmiPending (s : State) (f : Flags) : (s.setFlags f).nmiPending = s.nmiPending := rfl
@[simp] theorem State.setFlags_resetPending (s : State) (f : Flags) : (s.setFlags f).resetPending = s.resetPending := rfl
@[simp] theorem State.setFlags_irqLine (s : State) (f : Flags) : (s.setFlags f).irqLine = s.irqLine := rfl
@[simp] theorem State.setFlags_halted (s : State) (f : Flags) : (s.setFlags f).halted = s.halted := rfl
@[simp] theorem State.setFlags_refused (s : State) (f : Flags) : (s.setFlags f).refused = s.refused := rfl
@[simp] theorem State.setFlags_ram (s : State) (f : Flags) : (s.setFlags f).ram = s.ram := rfl
@[simp] theorem State.setFlags_cart (s : State) (f : Flags) : (s.setFlags f).cart = s.cart := rfl
@[simp] theorem State.setFlags_ppu (s : State) (f : Flags) : (s.setFlags f).ppu = s.ppu := rfl
@[simp] theorem State.setFlags_params (s : State) (f : Flags) : (s.setFlags f).params = s.params := rfl
@[simp] theorem State.setFlags_draws (s : State) (f : Flags) : (s.setFlags f).draws = s.draws := rfl

@[simp] theorem State.setRemaining_a (s : State) (n : Nat) : (s.setRemaining n).a = s.a := rfl
@[simp] theorem State.setRemaining_x (s : State) (n : Nat) : (s.setRemaining n).x = s.x := rfl
@[simp] theorem State.setRemaining_y (s : State) (n : Nat) : (s.setRemaining n).y = s.y := rfl
@[simp] theorem State.setRemaining_sp (s : State) (n : Nat) : (s.setRemaining n).sp = s.sp := rfl
@[simp] theorem State.setRemaining_pc (s : State) (n : Nat) : (s.setRemaining n).pc = s.pc := rfl
@[simp] theorem State.setRemaining_flags (s : State) (n : Nat) : (s.setRemaining n).flags = s.flags := rfl
@[simp] theorem State.setRemaining_cycles (s : State) (n : Nat) : (s.setRemaining n).cycles = s.cycles := rfl
@[simp] theorem State.setRemaining_remaining (s : State) (n : Nat) : (s.setRemaining n).remaining = n := rfl
@[simp] theorem State.setRemaining_nmiPending (s : State) (n : Nat) : (s.setRemaining n).nmiPending = s.nmiPending := rfl
@[simp] theorem State.setRemaining_resetPending (s : State) (n : Nat) : (s.setRemaining n).resetPending = s.resetPending := rfl
@[simp] theorem State.setRemaining_irqLine (s : State) (n : Nat) : (s.setRemaining n).irqLine = s.irqLine := rfl
@[simp] theorem State.setRemaining_halted (s : State) (n : Nat) : (s.setRemaining n).halted = s.halted := rfl
@[simp] theorem State.setRemaining_refused (s : State) (n : Nat) : (s.setRemaining n).refused = s.refused := rfl
@[simp] theorem State.setRemaining_ram (s : State) (n : Nat) : (s.setRemaining n).ram = s.ram := rfl
@[simp] theorem State.setRemaining_cart (s : State) (n : Nat) : (s.setRemaining n).cart = s.cart := rfl
@[simp] theorem State.setRemaining_ppu (s : State) (n : Nat) : (s.setRemaining n).ppu = s.ppu := rfl
@[simp] theorem State.setRemaining_params (s : State) (n : Nat) : (s.setRemaining n).params = s.params := rfl
@[simp] theorem State.setRemaining_draws (s : State) (n : Nat) : (s.setRemaining n).draws = s.draws := rfl

@[simp] theorem State.setRam_a (s : State) (m : Memory 8) : (s.setRam m).a = s.a := rfl
@[simp] theorem State.setRam_x (s : State) (m : Memory 8) : (s.setRam m).x = s.x := rfl
@[simp] theorem State.setRam_y (s : State) (m : Memory 8) : (s.setRam m).y = s.y := rfl
@[simp] theorem State.setRam_sp (s : State) (m : Memory 8) : (s.setRam m).sp = s.sp := rfl
@[simp] theorem State.setRam_pc (s : State) (m : Memory 8) : (s.setRam m).pc = s.pc := rfl
@[simp] theorem State.setRam_flags (s : State) (m : Memory 8) : (s.setRam m).flags = s.flags := rfl
@[simp] theorem State.setRam_cycles (s : State) (m : Memory 8) : (s.setRam m).cycles = s.cycles := rfl
@[simp] theorem State.setRam_remaining (s : State) (m : Memory 8) : (s.setRam m).remaining = s.remaining := rfl
@[simp] theorem State.setRam_nmiPending (s : State) (m : Memory 8) : (s.setRam m).nmiPending = s.nmiPending := rfl
@[simp] theorem State.setRam_resetPending (s : State) (m : Memory 8) : (s.setRam m).resetPending = s.resetPending := rfl
@[simp] theorem State.setRam_irqLine (s : State) (m : Memory 8) : (s.setRam m).irqLine = s.irqLine := rfl
@[simp] theorem State.setRam_halted (s : State) (m : Memory 8) : (s.setRam m).halted = s.halted := rfl
@[simp] theorem State.setRam_refused (s : State) (m : Memory 8) : (s.setRam m).refused = s.refused := rfl
@[simp] theorem State.setRam_ram (s : State) (m : Memory 8) : (s.setRam m).ram = m := rfl
@[simp] theorem State.setRam_cart (s : State) (m : Memory 8) : (s.setRam m).cart = s.cart := rfl
@[simp] theorem State.setRam_ppu (s : State) (m : Memory 8) : (s.setRam m).ppu = s.ppu := rfl
@[simp] theorem State.setRam_params (s : State) (m : Memory 8) : (s.setRam m).params = s.params := rfl
@[simp] theorem State.setRam_draws (s : State) (m : Memory 8) : (s.setRam m).draws = s.draws := rfl

@[simp] theorem State.setCart_a (s : State) (c : Cartridge) : (s.setCart c).a = s.a := rfl
@[simp] theorem State.setCart_x (s : State) (c : Cartridge) : (s.setCart c).x = s.x := rfl
@[simp] theorem State.setCart_y (s : State) (c : Cartridge) : (s.setCart c).y = s.y := rfl
@[simp] theorem State.setCart_sp (s : State) (c : Cartridge) : (s.setCart c).sp = s.sp := rfl
@[simp] theorem State.setCart_pc (s : State) (c : Cartridge) : (s.setCart c).pc = s.pc := rfl
@[simp] theorem State.setCart_flags (s : State) (c : Cartridge) : (s.setCart c).flags = s.flags := rfl
@[simp] theorem State.setCart_cycles (s : State) (c : Cartridge) : (s.setCart c).cycles = s.cycles := rfl
@[simp] theorem State.setCart_remaining (s : State) (c : Cartridge) : (s.setCart c).remaining = s.remaining := rfl
@[simp] theorem State.setCart_nmiPending (s : State) (c : Cartridge) : (s.setCart c).nmiPending = s.nmiPending := rfl
@[simp] theorem State.setCart_resetPending (s : State) (c : Cartridge) : (s.setCart c).resetPending = s.resetPending := rfl
@[simp] theorem State.setCart_irqLine (s : State) (c : Cartridge) : (s.setCart c).irqLine = s.irqLine := rfl
@[simp] theorem State.setCart_halted (s : State) (c : Cartridge) : (s.setCart c).halted = s.halted := rfl
@[simp] theorem State.setCart_refused (s : State) (c : Cartridge) : (s.setCart c).refused = s.refused := rfl
@[simp] theorem State.setCart_ram (s : State) (c : Cartridge) : (s.setCart c).ram = s.ram := rfl
@[simp] theorem State.setCart_cart (s : State) (c : Cartridge) : (s.setCart c).cart = c := rfl
@[simp] theorem State.setCart_ppu (s : State) (c : Cartridge) : (s.setCart c).ppu = s.ppu := rfl
@[simp] theorem State.setCart_params (s : State) (c : Cartridge) : (s.setCart c).params = s.params := rfl
@[simp] theorem State.setCart_draws (s : State) (c : Cartridge) : (s.setCart c).draws = s.draws := rfl

@[simp] theorem State.setPpu_a (s : State) (p : Ppu) : (s.setPpu p).a = s.a := rfl
@[simp] theorem State.setPpu_x (s : State) (p : Ppu) : (s.setPpu p).x = s.x := rfl
@[simp] theorem State.setPpu_y (s : State) (p : Ppu) : (s.setPpu p).y = s.y := rfl
@[simp] theorem State.setPpu_sp (s : State) (p : Ppu) : (s.setPpu p).sp = s.sp := rfl
@[simp] theorem State.setPpu_pc (s : State) (p : Ppu) : (s.setPpu p).pc = s.pc := rfl
@[simp] theorem State.setPpu_flags (s : State) (p : Ppu) : (s.setPpu p).flags = s.flags := rfl
@[simp] theorem State.setPpu_cycles (s : State) (p : Ppu) : (s.setPpu p).cycles = s.cycles := rfl
@[simp] theorem State.setPpu_remaining (s : State) (p : Ppu) : (s.setPpu p).remaining = s.remaining := rfl
@[simp] theorem State.setPpu_nmiPending (s : State) (p : Ppu) : (s.setPpu p).nmiPending = s.nmiPending := rfl
@[simp] theorem State.setPpu_resetPending (s : State) (p : Ppu) : (s.setPpu p).resetPending = s.resetPending := rfl
@[simp] theorem State.setPpu_irqLine (s : State) (p : Ppu) : (s.setPpu p).irqLine = s.irqLine := rfl
@[simp] theorem State.setPpu_halted (s : State) (p : Ppu) : (s.setPpu p).halted = s.halted := rfl
@[simp] theorem State.setPpu_refused (s : State) (p : Ppu) : (s.setPpu p).refused = s.refused := rfl
@[simp] theorem State.setPpu_ram (s : State) (p : Ppu) : (s.setPpu p).ram = s.ram := rfl
@[simp] theorem State.setPpu_cart (s : State) (p : Ppu) : (s.setPpu p).cart = s.cart := rfl
@[simp] theorem State.setPpu_ppu (s : State) (p : Ppu) : (s.setPpu p).ppu = p := rfl
@[simp] theorem State.setPpu_params (s : State) (p : Ppu) : (s.setPpu p).params = s.params := rfl
@[simp] theorem State.setPpu_draws (s : State) (p : Ppu) : (s.setPpu p).draws = s.draws := rfl

@[simp] theorem State.drawn_a (s : State) : s.drawn.a = s.a := rfl
@[simp] theorem State.drawn_x (s : State) : s.drawn.x = s.x := rfl
@[simp] theorem State.drawn_y (s : State) : s.drawn.y = s.y := rfl
@[simp] theorem State.drawn_sp (s : State) : s.drawn.sp = s.sp := rfl
@[simp] theorem State.drawn_pc (s : State) : s.drawn.pc = s.pc := rfl
@[simp] theorem State.drawn_flags (s : State) : s.drawn.flags = s.flags := rfl
@[simp] theorem State.drawn_cycles (s : State) : s.drawn.cycles = s.cycles := rfl
@[simp] theorem State.drawn_remaining (s : State) : s.drawn.remaining = s.remaining := rfl
@[simp] theorem State.drawn_nmiPending (s : State) : s.drawn.nmiPending = s.nmiPending := rfl
@[simp] theorem State.drawn_resetPending (s : State) : s.drawn.resetPending = s.resetPending := rfl
@[simp] theorem State.drawn_irqLine (s : State) : s.drawn.irqLine = s.irqLine := rfl
@[simp] theorem State.drawn_halted (s : State) : s.drawn.halted = s.halted := rfl
@[simp] theorem State.drawn_refused (s : State) : s.drawn.refused = s.refused := rfl
@[simp] theorem State.drawn_ram (s : State) : s.drawn.ram = s.ram := rfl
@[simp] theorem State.drawn_cart (s : State) : s.drawn.cart = s.cart := rfl
@[simp] theorem State.drawn_ppu (s : State) : s.drawn.ppu = s.ppu := rfl
@[simp] theorem State.drawn_params (s : State) : s.drawn.params = s.params := rfl
@[simp] theorem State.drawn_draws (s : State) : s.drawn.draws = s.draws + 1 := rfl

@[simp] theorem State.setNZ_a (s : State) (v : Byte) : (s.setNZ v).a = s.a := rfl
@[simp] theorem State.setNZ_x (s : State) (v : Byte) : (s.setNZ v).x = s.x := rfl
@[simp] theorem State.setNZ_y (s : State) (v : Byte) : (s.setNZ v).y = s.y := rfl
@[simp] theorem State.setNZ_sp (s : State) (v : Byte) : (s.setNZ v).sp = s.sp := rfl
@[simp] theorem State.setNZ_pc (s : State) (v : Byte) : (s.setNZ v).pc = s.pc := rfl
@[simp] theorem State.setNZ_flags (s : State) (v : Byte) : (s.setNZ v).flags = s.flags.setNZ v := rfl
@[simp] theorem State.setNZ_cycles (s : State) (v : Byte) : (s.setNZ v).cycles = s.cycles := rfl
@[simp] theorem State.setNZ_remaining (s : State) (v : Byte) : (s.setNZ v).remaining = s.remaining := rfl
@[simp] theorem State.setNZ_nmiPending (s : State) (v : Byte) : (s.setNZ v).nmiPending = s.nmiPending := rfl
@[simp] theorem State.setNZ_resetPending (s : State) (v : Byte) : (s.setNZ v).resetPending = s.resetPending := rfl
@[simp] theorem State.setNZ_irqLine (s : State) (v : Byte) : (s.setNZ v).irqLine = s.irqLine := rfl
@[simp] theorem State.setNZ_halted (s : State) (v : Byte) : (s.setNZ v).halted = s.halted := rfl
@[simp] theorem State.setNZ_refused (s : State) (v : Byte) : (s.setNZ v).refused = s.refused := rfl
@[simp] theorem State.setNZ_ram (s : State) (v : Byte) : (s.setNZ v).ram = s.ram := rfl
@[simp] theorem State.setNZ_cart (s : State) (v : Byte) : (s.setNZ v).cart = s.cart := rfl
@[simp] theorem State.setNZ_ppu (s : State) (v : Byte) : (s.setNZ v).ppu = s.ppu := rfl
@[simp] theorem State.setNZ_params (s : State) (v : Byte) : (s.setNZ v).params = s.params := rfl
@[simp] theorem State.setNZ_draws (s : State) (v : Byte) : (s.setNZ v).draws = s.draws := rfl

@[simp] theorem State.advance_a (s : State) (op : Byte) : (s.advance op).a = s.a := rfl
@[simp] theorem State.advance_x (s : State) (op : Byte) : (s.advance op).x = s.x := rfl
@[simp] theorem State.advance_y (s : State) (op : Byte) : (s.advance op).y = s.y := rfl
@[simp] theorem State.advance_sp (s : State) (op : Byte) : (s.advance op).sp = s.sp := rfl
@[simp] theorem State.advance_pc (s : State) (op : Byte) : (s.advance op).pc = s.pc + BitVec.ofNat 16 (opcodeRow op).length := rfl
@[simp] theorem State.advance_flags (s : State) (op : Byte) : (s.advance op).flags = s.flags := rfl
@[simp] theorem State.advance_cycles (s : State) (op : Byte) : (s.advance op).cycles = s.cycles := rfl
@[simp] theorem State.advance_remaining (s : State) (op : Byte) : (s.advance op).remaining = s.remaining := rfl
@[simp] theorem State.advance_nmiPending (s : State) (op : Byte) : (s.advance op).nmiPending = s.nmiPending := rfl
@[simp] theorem State.advance_resetPending (s : State) (op : Byte) : (s.advance op).resetPending = s.resetPending := rfl
@[simp] theorem State.advance_irqLine (s : State) (op : Byte) : (s.advance op).irqLine = s.irqLine := rfl
@[simp] theorem State.advance_halted (s : State) (op : Byte) : (s.advance op).halted = s.halted := rfl
@[simp] theorem State.advance_refused (s : State) (op : Byte) : (s.advance op).refused = s.refused := rfl
@[simp] theorem State.advance_ram (s : State) (op : Byte) : (s.advance op).ram = s.ram := rfl
@[simp] theorem State.advance_cart (s : State) (op : Byte) : (s.advance op).cart = s.cart := rfl
@[simp] theorem State.advance_ppu (s : State) (op : Byte) : (s.advance op).ppu = s.ppu := rfl
@[simp] theorem State.advance_params (s : State) (op : Byte) : (s.advance op).params = s.params := rfl
@[simp] theorem State.advance_draws (s : State) (op : Byte) : (s.advance op).draws = s.draws := rfl

@[simp] theorem Flags.setNZ_n (f : Flags) (v : Byte) : (f.setNZ v).n = bit v 7 := rfl
@[simp] theorem Flags.setNZ_v (f : Flags) (v : Byte) : (f.setNZ v).v = f.v := rfl
@[simp] theorem Flags.setNZ_d (f : Flags) (v : Byte) : (f.setNZ v).d = f.d := rfl
@[simp] theorem Flags.setNZ_i (f : Flags) (v : Byte) : (f.setNZ v).i = f.i := rfl
@[simp] theorem Flags.setNZ_z (f : Flags) (v : Byte) : (f.setNZ v).z = decide (v = 0) := rfl
@[simp] theorem Flags.setNZ_c (f : Flags) (v : Byte) : (f.setNZ v).c = f.c := rfl

end Sys2Proof.Machine
end

