-- ==== Sys2Proof/Laws/Ops.lean ====
section
/-! SUPPORT. What each shared operation of the CPU bus, the stack and the addressing modes does, said once: a read
changes nothing but the picture unit and the draw counter; a write changes nothing but RAM, the cartridge, the
picture unit and the draw counter; zero-page and stack accesses are plain RAM; resolving an address changes
nothing at all. -/

namespace Sys2Proof
theorem word16_toNat (h l : Byte) : (word16 h l).toNat = 256 * h.toNat + l.toNat := by
  have e : (word16 h l).toNat = h.toNat <<< 8 ||| l.toNat := BitVec.toNat_append h l
  rw [e, ← Nat.shiftLeft_add_eq_or_of_lt l.isLt, Nat.shiftLeft_eq]
  omega

theorem hiByte_toNat (w : Addr) : (hiByte w).toNat = w.toNat / 256 := by
  have := w.isLt
  simp [hiByte, BitVec.extractLsb'_toNat, Nat.shiftRight_eq_div_pow]; omega

theorem loByte_toNat (w : Addr) : (loByte w).toNat = w.toNat % 256 := by
  simp [loByte, BitVec.extractLsb'_toNat]

@[simp] theorem hiByte_word16 (h l : Byte) : hiByte (word16 h l) = h := by
  apply BitVec.eq_of_toNat_eq; have := l.isLt; rw [hiByte_toNat, word16_toNat]; omega

@[simp] theorem loByte_word16 (h l : Byte) : loByte (word16 h l) = l := by
  apply BitVec.eq_of_toNat_eq; have := l.isLt; rw [loByte_toNat, word16_toNat]; omega

@[simp] theorem word16_hi_lo (w : Addr) : word16 (hiByte w) (loByte w) = w := by
  apply BitVec.eq_of_toNat_eq; rw [word16_toNat, hiByte_toNat, loByte_toNat]; omega

theorem zext16_toNat (b : Byte) : (zext16 b).toNat = b.toNat := by
  simp [zext16]; omega

namespace Machine

/-! ### The CPU address decoder -/

@[simp] theorem cpuRegion_zext16 (b : Byte) : cpuRegion (zext16 b) = .ram b.toNat := by
  have := b.isLt
  unfold cpuRegion; rw [zext16_toNat]
  simp only []
  rw [if_pos (by omega), Nat.mod_eq_of_lt (by omega)]
@[simp] theorem cpuRegion_stackAddr (b : Byte) : cpuRegion (stackAddr b) = .ram (256 + b.toNat) := by
  have := b.isLt
  have e : (stackAddr b).toNat = 256 + b.toNat := by simp [stackAddr, word16_toNat]
  unfold cpuRegion; rw [e]
  simp only []
  rw [if_pos (by omega), Nat.mod_eq_of_lt (by omega)]

theorem cpuRegion_cart {a : Addr} (h : 0x4020 ≤ a.toNat) : cpuRegion a = .cartridge := by
  unfold cpuRegion
  simp only []
  rw [if_neg (by omega), if_neg (by omega), if_neg (by omega), if_neg (by omega), if_neg (by omega)]

theorem cpuRegion_ram {a : Addr} (h : a.toNat < 0x2000) : cpuRegion a = .ram (a.toNat % 0x800) := by
  unfold cpuRegion
  simp only []
  rw [if_pos h]

theorem cpuRegion_ram_lt {a : Addr} {k : Nat} (h : cpuRegion a = .ram k) : k < 2048 := by
  unfold cpuRegion at h
  simp only [] at h
  split_ifs at h
  cases h; omega

/-! ### Reads -/

theorem openBusByte_state (s : State) :
    (openBusByte s).2 = { s with draws := (openBusByte s).2.draws } := by
  unfold openBusByte; split <;> rfl

theorem readPpuReg_state (r : BitVec 3) (s : State) :
    (readPpuReg r s).2 = { s with
      draws := (readPpuReg r s).2.draws
      ppu := { s.ppu with
        vblank := (readPpuReg r s).2.ppu.vblank, w := (readPpuReg r s).2.ppu.w
        suppress := (readPpuReg r s).2.ppu.suppress, v := (readPpuReg r s).2.ppu.v
        readBuffer := (readPpuReg r s).2.ppu.readBuffer } } := by
  unfold readPpuReg
  split
  · unfold readStatus openBusByte; cases s.params.ppuOpenBus <;> rfl
  · rfl
  · unfold readData
    simp only []
    split
    · rfl
    · unfold openBusByte; cases s.params.ppuOpenBus <;> rfl
  · rw [openBusByte_state]

/-- A read changes only the draw counter and five fields of the picture unit (rules R64, R406, R411). -/
theorem memRead_state (a : Addr) (s : State) :
    (memRead a s).2 = { s with
      draws := (memRead a s).2.draws
      ppu := { s.ppu with
        vblank := (memRead a s).2.ppu.vblank, w := (memRead a s).2.ppu.w
        suppress := (memRead a s).2.ppu.suppress, v := (memRead a s).2.ppu.v
        readBuffer := (memRead a s).2.ppu.readBuffer } } := by
  unfold memRead
  split
  · rfl
  · exact readPpuReg_state _ _
  all_goals rfl

@[simp] theorem memRead_a (a : Addr) (s : State) : (memRead a s).2.a = s.a := by rw [memRead_state]
@[simp] theorem memRead_x (a : Addr) (s : State) : (memRead a s).2.x = s.x := by rw [memRead_state]
@[simp] theorem memRead_y (a : Addr) (s : State) : (memRead a s).2.y = s.y := by rw [memRead_state]
@[simp] theorem memRead_sp (a : Addr) (s : State) : (memRead a s).2.sp = s.sp := by rw [memRead_state]
@[simp] theorem memRead_pc (a : Addr) (s : State) : (memRead a s).2.pc = s.pc := by rw [memRead_state]
@[simp] theorem memRead_flags (a : Addr) (s : State) : (memRead a s).2.flags = s.flags := by rw [memRead_state]
@[simp] theorem memRead_cycles (a : Addr) (s : State) : (memRead a s).2.cycles = s.cycles := by rw [memRead_state]
@[simp] theorem memRead_remaining (a : Addr) (s : State) : (memRead a s).2.remaining = s.remaining := by rw [memRead_state]
@[simp] theorem memRead_nmiPending (a : Addr) (s : State) : (memRead a s).2.nmiPending = s.nmiPending := by rw [memRead_state]
@[simp] theorem memRead_resetPending (a : Addr) (s : State) : (memRead a s).2.resetPending = s.resetPending := by rw [memRead_state]
@[simp] theorem memRead_irqLine (a : Addr) (s : State) : (memRead a s).2.irqLine = s.irqLine := by rw [memRead_state]
@[simp] theorem memRead_halted (a : Addr) (s : State) : (memRead a s).2.halted = s.halted := by rw [memRead_state]
@[simp] theorem memRead_refused (a : Addr) (s : State) : (memRead a s).2.refused = s.refused := by rw [memRead_state]
@[simp] theorem memRead_ram (a : Addr) (s : State) : (memRead a s).2.ram = s.ram := by rw [memRead_state]
@[simp] theorem memRead_cart (a : Addr) (s : State) : (memRead a s).2.cart = s.cart := by rw [memRead_state]
@[simp] theorem memRead_params (a : Addr) (s : State) : (memRead a s).2.params = s.params := by rw [memRead_state]

@[simp] theorem memRead_ppu_tick (a : Addr) (s : State) : (memRead a s).2.ppu.tick = s.ppu.tick := by
  rw [memRead_state]
@[simp] theorem memRead_ppu_oddFrame (a : Addr) (s : State) : (memRead a s).2.ppu.oddFrame = s.ppu.oddFrame := by
  rw [memRead_state]
@[simp] theorem memRead_ppu_ctrl (a : Addr) (s : State) : (memRead a s).2.ppu.ctrl = s.ppu.ctrl := by
  rw [memRead_state]
@[simp] theorem memRead_ppu_mask (a : Addr) (s : State) : (memRead a s).2.ppu.mask = s.ppu.mask := by
  rw [memRead_state]
@[simp] theorem memRead_ppu_sprite0Hit (a : Addr) (s : State) : (memRead a s).2.ppu.sprite0Hit = s.ppu.sprite0Hit := by
  rw [memRead_state]
@[simp] theorem memRead_ppu_spriteOverflow (a : Addr) (s : State) : (memRead a s).2.ppu.spriteOverflow = s.ppu.spriteOverflow := by
  rw [memRead_state]
@[simp] theorem memRead_ppu_oamAddr (a : Addr) (s : State) : (memRead a s).2.ppu.oamAddr = s.ppu.oamAddr := by
  rw [memRead_state]
@[simp] theorem memRead_ppu_oam (a : Addr) (s : State) : (memRead a s).2.ppu.oam = s.ppu.oam := by
  rw [memRead_state]
@[simp] theorem memRead_ppu_t (a : Addr) (s : State) : (memRead a s).2.ppu.t = s.ppu.t := by
  rw [memRead_state]
@[simp] theorem memRead_ppu_x (a : Addr) (s : State) : (memRead a s).2.ppu.x = s.ppu.x := by
  rw [memRead_state]
@[simp] theorem memRead_ppu_ntLatch (a : Addr) (s : State) : (memRead a s).2.ppu.ntLatch = s.ppu.ntLatch := by
  rw [memRead_state]
@[simp] theorem memRead_ppu_atLatch (a : Addr) (s : State) : (memRead a s).2.ppu.atLatch = s.ppu.atLatch := by
  rw [memRead_state]
@[simp] theorem memRead_ppu_ptLoLatch (a : Addr) (s : State) : (memRead a s).2.ppu.ptLoLatch = s.ppu.ptLoLatch := by
  rw [memRead_state]
@[simp] theorem memRead_ppu_ptHiLatch (a : Addr) (s : State) : (memRead a s).2.ppu.ptHiLatch = s.ppu.ptHiLatch := by
  rw [memRead_state]
@[simp] theorem memRead_ppu_bgLo (a : Addr) (s : State) : (memRead a s).2.ppu.bgLo = s.ppu.bgLo := by
  rw [memRead_state]
@[simp] theorem memRead_ppu_bgHi (a : Addr) (s : State) : (memRead a s).2.ppu.bgHi = s.ppu.bgHi := by
  rw [memRead_state]
@[simp] theorem memRead_ppu_atLo (a : Addr) (s : State) : (memRead a s).2.ppu.atLo = s.ppu.atLo := by
  rw [memRead_state]
@[simp] theorem memRead_ppu_atHi (a : Addr) (s : State) : (memRead a s).2.ppu.atHi = s.ppu.atHi := by
  rw [memRead_state]
@[simp] theorem memRead_ppu_sec (a : Addr) (s : State) : (memRead a s).2.ppu.sec = s.ppu.sec := by
  rw [memRead_state]
@[simp] theorem memRead_ppu_secHas0 (a : Addr) (s : State) : (memRead a s).2.ppu.secHas0 = s.ppu.secHas0 := by
  rw [memRead_state]
@[simp] theorem memRead_ppu_slots (a : Addr) (s : State) : (memRead a s).2.ppu.slots = s.ppu.slots := by
  rw [memRead_state]
@[simp] theorem memRead_ppu_sprCount (a : Addr) (s : State) : (memRead a s).2.ppu.sprCount = s.ppu.sprCount := by
  rw [memRead_state]
@[simp] theorem memRead_ppu_sprHas0 (a : Addr) (s : State) : (memRead a s).2.ppu.sprHas0 = s.ppu.sprHas0 := by
  rw [memRead_state]
@[simp] theorem memRead_ppu_vblankDelayed (a : Addr) (s : State) : (memRead a s).2.ppu.vblankDelayed = s.ppu.vblankDelayed := by
  rw [memRead_state]
@[simp] theorem memRead_ppu_nmiOut (a : Addr) (s : State) : (memRead a s).2.ppu.nmiOut = s.ppu.nmiOut := by
  rw [memRead_state]
@[simp] theorem memRead_ppu_ioLatch (a : Addr) (s : State) : (memRead a s).2.ppu.ioLatch = s.ppu.ioLatch := by
  rw [memRead_state]
@[simp] theorem memRead_ppu_ntRam (a : Addr) (s : State) : (memRead a s).2.ppu.ntRam = s.ppu.ntRam := by
  rw [memRead_state]
@[simp] theorem memRead_ppu_pal (a : Addr) (s : State) : (memRead a s).2.ppu.pal = s.ppu.pal := by
  rw [memRead_state]
@[simp] theorem memRead_ppu_frame (a : Addr) (s : State) : (memRead a s).2.ppu.frame = s.ppu.frame := by
  rw [memRead_state]

/-- A read of RAM (rule R55). -/
theorem memRead_ram_region {a : Addr} {k : Nat} (h : cpuRegion a = .ram k) (s : State) :
    memRead a s = (s.ram.read k, s) := by
  unfold memRead; rw [h]

/-- A read of cartridge space changes nothing (rules R60, R74). -/
theorem memRead_cart_region {a : Addr} (h : cpuRegion a = .cartridge) (s : State) :
    memRead a s = (s.cart.getCpuAt a, s) := by
  unfold memRead; rw [h]

@[simp] theorem memRead_zext16 (b : Byte) (s : State) : memRead (zext16 b) s = (s.ram.read b.toNat, s) :=
  memRead_ram_region (cpuRegion_zext16 b) s

@[simp] theorem memRead_stackAddr (b : Byte) (s : State) :
    memRead (stackAddr b) s = (s.ram.read (256 + b.toNat), s) :=
  memRead_ram_region (cpuRegion_stackAddr b) s

/-! ### Writes -/

/-- The fields of the state no write changes. -/
structure SameCore (s t : State) : Prop where
  a : t.a = s.a
  x : t.x = s.x
  y : t.y = s.y
  sp : t.sp = s.sp
  pc : t.pc = s.pc
  flags : t.flags = s.flags
  cycles : t.cycles = s.cycles
  remaining : t.remaining = s.remaining
  nmiPending : t.nmiPending = s.nmiPending
  resetPending : t.resetPending = s.resetPending
  irqLine : t.irqLine = s.irqLine
  halted : t.halted = s.halted
  refused : t.refused = s.refused
  params : t.params = s.params

theorem SameCore.refl (s : State) : SameCore s s := by constructor <;> rfl

theorem SameCore.trans {s t u : State} (h : SameCore s t) (h' : SameCore t u) : SameCore s u := by
  constructor

  · rw [h'.a, h.a]
  · rw [h'.x, h.x]
  · rw [h'.y, h.y]
  · rw [h'.sp, h.sp]
  · rw [h'.pc, h.pc]
  · rw [h'.flags, h.flags]
  · rw [h'.cycles, h.cycles]
  · rw [h'.remaining, h.remaining]
  · rw [h'.nmiPending, h.nmiPending]
  · rw [h'.resetPending, h.resetPending]
  · rw [h'.irqLine, h.irqLine]
  · rw [h'.halted, h.halted]
  · rw [h'.refused, h.refused]
  · rw [h'.params, h.params]

theorem SameCore.setRam (s : State) (m : Memory 8) : SameCore s (s.setRam m) := by constructor <;> rfl

theorem SameCore.setCart (s : State) (c : Cartridge) : SameCore s (s.setCart c) := by constructor <;> rfl

theorem SameCore.setPpu (s : State) (p : Ppu) : SameCore s (s.setPpu p) := by constructor <;> rfl

theorem SameCore.memRead (a : Addr) (s : State) : SameCore s (memRead a s).2 := by constructor <;> simp

theorem SameCore.ppuWrite (a : BitVec 14) (d : Byte) (s : State) : SameCore s (ppuWrite a d s) := by
  unfold Machine.ppuWrite; split <;> constructor <;> rfl

theorem SameCore.writePpuReg (r : BitVec 3) (d : Byte) (s : State) : SameCore s (writePpuReg r d s) := by
  unfold Machine.writePpuReg
  simp only []
  split
  case _ => exact ((SameCore.setPpu _ _).trans (SameCore.setPpu _ _))
  case _ => exact ((SameCore.setPpu _ _).trans (SameCore.setPpu _ _))
  case _ => exact ((SameCore.setPpu _ _).trans (SameCore.setPpu _ _))
  case _ => exact ((SameCore.setPpu _ _).trans (SameCore.setPpu _ _))
  case _ => exact ((SameCore.setPpu _ _).trans (SameCore.setPpu _ _))
  case _ => exact ((SameCore.setPpu _ _).trans (SameCore.setPpu _ _))
  case _ => exact (SameCore.setPpu _ _).trans ((SameCore.ppuWrite _ _ _).trans (SameCore.setPpu _ _))
  case _ => exact SameCore.setPpu _ _

theorem SameCore.dmaByte (v : Byte) (s : State) (i : Nat) : SameCore s (dmaByte v s i) :=
  (SameCore.memRead _ _).trans (SameCore.setPpu _ _)

theorem SameCore.foldl_dmaByte (v : Byte) (l : List Nat) (s : State) : SameCore s (l.foldl (Machine.dmaByte v) s) := by
  induction l generalizing s with
  | nil => exact SameCore.refl s
  | cons i rest ih => exact (SameCore.dmaByte v s i).trans (ih _)

/-- A write changes only RAM, the cartridge, the picture unit and the draw counter (rule R65). -/
theorem SameCore.memWrite (a : Addr) (v : Byte) (s : State) : SameCore s (memWrite a v s) := by
  unfold Machine.memWrite
  split
  · exact SameCore.setRam _ _
  · exact SameCore.writePpuReg _ _ _
  · exact SameCore.foldl_dmaByte _ _ _
  · exact SameCore.refl _
  · exact SameCore.refl _
  · exact SameCore.setCart _ _

@[simp] theorem memWrite_a (a : Addr) (v : Byte) (s : State) : (memWrite a v s).a = s.a :=
  (SameCore.memWrite a v s).a
@[simp] theorem memWrite_x (a : Addr) (v : Byte) (s : State) : (memWrite a v s).x = s.x :=
  (SameCore.memWrite a v s).x
@[simp] theorem memWrite_y (a : Addr) (v : Byte) (s : State) : (memWrite a v s).y = s.y :=
  (SameCore.memWrite a v s).y
@[simp] theorem memWrite_sp (a : Addr) (v : Byte) (s : State) : (memWrite a v s).sp = s.sp :=
  (SameCore.memWrite a v s).sp
@[simp] theorem memWrite_pc (a : Addr) (v : Byte) (s : State) : (memWrite a v s).pc = s.pc :=
  (SameCore.memWrite a v s).pc
@[simp] theorem memWrite_flags (a : Addr) (v : Byte) (s : State) : (memWrite a v s).flags = s.flags :=
  (SameCore.memWrite a v s).flags
@[simp] theorem memWrite_cycles (a : Addr) (v : Byte) (s : State) : (memWrite a v s).cycles = s.cycles :=
  (SameCore.memWrite a v s).cycles
@[simp] theorem memWrite_remaining (a : Addr) (v : Byte) (s : State) : (memWrite a v s).remaining = s.remaining :=
  (SameCore.memWrite a v s).remaining
@[simp] theorem memWrite_nmiPending (a : Addr) (v : Byte) (s : State) : (memWrite a v s).nmiPending = s.nmiPending :=
  (SameCore.memWrite a v s).nmiPending
@[simp] theorem memWrite_resetPending (a : Addr) (v : Byte) (s : State) : (memWrite a v s).resetPending = s.resetPending :=
  (SameCore.memWrite a v s).resetPending
@[simp] theorem memWrite_irqLine (a : Addr) (v : Byte) (s : State) : (memWrite a v s).irqLine = s.irqLine :=
  (SameCore.memWrite a v s).irqLine
@[simp] theorem memWrite_halted (a : Addr) (v : Byte) (s : State) : (memWrite a v s).halted = s.halted :=
  (SameCore.memWrite a v s).halted
@[simp] theorem memWrite_refused (a : Addr) (v : Byte) (s : State) : (memWrite a v s).refused = s.refused :=
  (SameCore.memWrite a v s).refused
@[simp] theorem memWrite_params (a : Addr) (v : Byte) (s : State) : (memWrite a v s).params = s.params :=
  (SameCore.memWrite a v s).params

/-- A write to RAM (rule R55). -/
theorem memWrite_ram_region {a : Addr} {k : Nat} (h : cpuRegion a = .ram k) (v : Byte) (s : State) :
    memWrite a v s = s.setRam (s.ram.write k v) := by
  unfold memWrite; rw [h]

@[simp] theorem memWrite_stackAddr (b v : Byte) (s : State) :
    memWrite (stackAddr b) v s = s.setRam (s.ram.write (256 + b.toNat) v) :=
  memWrite_ram_region (cpuRegion_stackAddr b) v s

/-! ### The stack -/

/-- A push writes the byte at `$0100 + SP` and lowers SP (rule R62). -/
theorem push_eq (v : Byte) (s : State) :
    push v s = { s with ram := s.ram.write (256 + s.sp.toNat) v, sp := s.sp - 1 } := by
  unfold push; rw [memWrite_stackAddr]; rfl

/-- A pull raises SP and reads the byte there (rule R62). -/
theorem pull_eq (s : State) : pull s = (s.ram.read (256 + (s.sp + 1).toNat), { s with sp := s.sp + 1 }) := by
  unfold pull
  simp only []
  rw [memRead_stackAddr]; rfl

theorem push16_eq (w : Addr) (s : State) :
    push16 w s = { s with
      ram := (s.ram.write (256 + s.sp.toNat) (hiByte w)).write (256 + (s.sp - 1).toNat) (loByte w)
      sp := s.sp - 2 } := by
  have e : s.sp - 1 - 1 = s.sp - 2 := by bv_omega
  unfold push16; rw [push_eq, push_eq, e]

theorem pull16_eq (s : State) :
    pull16 s =
      (word16 (s.ram.read (256 + (s.sp + 2).toNat)) (s.ram.read (256 + (s.sp + 1).toNat)),
        { s with sp := s.sp + 2 }) := by
  have e : s.sp + 1 + 1 = s.sp + 2 := by bv_omega
  unfold pull16
  simp only [pull_eq]
  rw [e]

/-- `Read16` of cartridge space: no state changes (rules R53, R74). -/
theorem read16_cart {a : Addr} (h : cpuRegion a = .cartridge) (h' : cpuRegion (a + 1) = .cartridge) (s : State) :
    read16 a s = (word16 (s.cart.getCpuAt (a + 1)) (s.cart.getCpuAt a), s) := by
  unfold read16
  simp only [memRead_cart_region h, memRead_cart_region h']

theorem read16_nmiVector (s : State) :
    read16 nmiVector s = (word16 (s.cart.getCpuAt 0xFFFB) (s.cart.getCpuAt 0xFFFA), s) :=
  read16_cart (by decide) (by decide) s

theorem read16_resetVector (s : State) :
    read16 resetVector s = (word16 (s.cart.getCpuAt 0xFFFD) (s.cart.getCpuAt 0xFFFC), s) :=
  read16_cart (by decide) (by decide) s

theorem read16_irqVector (s : State) :
    read16 irqVector s = (word16 (s.cart.getCpuAt 0xFFFF) (s.cart.getCpuAt 0xFFFE), s) :=
  read16_cart (by decide) (by decide) s

/-! ### Addressing modes -/

/-- A zero-page pointer is read from RAM, its second byte wrapping within page 0 (rules R132, R133). -/
theorem zeroPagePointer_eq (p : Byte) (s : State) :
    zeroPagePointer p s = (word16 (s.ram.read (p + 1).toNat) (s.ram.read p.toNat), s) := by
  unfold zeroPagePointer
  simp only [memRead_zext16]

/-- Resolving the address of a memory operand changes no state. -/
@[simp] theorem resolve_state (o : MemOperand) (s : State) : (resolve o s).state = s := by
  cases o <;> simp [resolve, indexed, zeroPagePointer_eq]

/-- The state after an operand was read: only the picture unit and the draw counter can differ. -/
theorem load_state (src : Source) (s : State) :
    (load src s).state = { s with draws := (load src s).state.draws, ppu := (load src s).state.ppu } := by
  cases src with
  | immediate m => rfl
  | memory o => simp only [load, resolve_state]; rw [memRead_state]

@[simp] theorem load_a (src : Source) (s : State) : (load src s).state.a = s.a := by rw [load_state]
@[simp] theorem load_x (src : Source) (s : State) : (load src s).state.x = s.x := by rw [load_state]
@[simp] theorem load_y (src : Source) (s : State) : (load src s).state.y = s.y := by rw [load_state]
@[simp] theorem load_sp (src : Source) (s : State) : (load src s).state.sp = s.sp := by rw [load_state]
@[simp] theorem load_pc (src : Source) (s : State) : (load src s).state.pc = s.pc := by rw [load_state]
@[simp] theorem load_flags (src : Source) (s : State) : (load src s).state.flags = s.flags := by rw [load_state]
@[simp] theorem load_cycles (src : Source) (s : State) : (load src s).state.cycles = s.cycles := by rw [load_state]
@[simp] theorem load_remaining (src : Source) (s : State) : (load src s).state.remaining = s.remaining := by rw [load_state]
@[simp] theorem load_nmiPending (src : Source) (s : State) : (load src s).state.nmiPending = s.nmiPending := by rw [load_state]
@[simp] theorem load_resetPending (src : Source) (s : State) : (load src s).state.resetPending = s.resetPending := by rw [load_state]
@[simp] theorem load_irqLine (src : Source) (s : State) : (load src s).state.irqLine = s.irqLine := by rw [load_state]
@[simp] theorem load_halted (src : Source) (s : State) : (load src s).state.halted = s.halted := by rw [load_state]
@[simp] theorem load_refused (src : Source) (s : State) : (load src s).state.refused = s.refused := by rw [load_state]
@[simp] theorem load_ram (src : Source) (s : State) : (load src s).state.ram = s.ram := by rw [load_state]
@[simp] theorem load_cart (src : Source) (s : State) : (load src s).state.cart = s.cart := by rw [load_state]
@[simp] theorem load_params (src : Source) (s : State) : (load src s).state.params = s.params := by rw [load_state]

end Machine

end Sys2Proof
end

