-- ==== Sys2Proof/Laws/Instr.lean ====
section
/-! SUPPORT. The opcode table's rows, and the mnemonic and the operand of every constructor of `Instr`, so that no later
proof evaluates the table. -/

namespace Sys2Proof

theorem opcodeRow_00 : opcodeRow 0x00 = ⟨.brk, .implied, 1, some 7, false, .official⟩ := rfl
theorem opcodeRow_01 : opcodeRow 0x01 = ⟨.ora, .indexedIndirect, 2, some 6, false, .official⟩ := rfl
theorem opcodeRow_02 : opcodeRow 0x02 = ⟨.jam, .implied, 1, none, false, .halt⟩ := rfl
theorem opcodeRow_03 : opcodeRow 0x03 = ⟨.slo, .indexedIndirect, 2, some 8, false, .unofficial⟩ := rfl
theorem opcodeRow_04 : opcodeRow 0x04 = ⟨.nop, .zeroPage, 2, some 3, false, .unofficial⟩ := rfl
theorem opcodeRow_05 : opcodeRow 0x05 = ⟨.ora, .zeroPage, 2, some 3, false, .official⟩ := rfl
theorem opcodeRow_06 : opcodeRow 0x06 = ⟨.asl, .zeroPage, 2, some 5, false, .official⟩ := rfl
theorem opcodeRow_07 : opcodeRow 0x07 = ⟨.slo, .zeroPage, 2, some 5, false, .unofficial⟩ := rfl
theorem opcodeRow_08 : opcodeRow 0x08 = ⟨.php, .implied, 1, some 3, false, .official⟩ := rfl
theorem opcodeRow_09 : opcodeRow 0x09 = ⟨.ora, .immediate, 2, some 2, false, .official⟩ := rfl
theorem opcodeRow_0A : opcodeRow 0x0A = ⟨.asl, .accumulator, 1, some 2, false, .official⟩ := rfl
theorem opcodeRow_0B : opcodeRow 0x0B = ⟨.anc, .immediate, 2, some 2, false, .unofficial⟩ := rfl
theorem opcodeRow_0C : opcodeRow 0x0C = ⟨.nop, .absolute, 3, some 4, false, .unofficial⟩ := rfl
theorem opcodeRow_0D : opcodeRow 0x0D = ⟨.ora, .absolute, 3, some 4, false, .official⟩ := rfl
theorem opcodeRow_0E : opcodeRow 0x0E = ⟨.asl, .absolute, 3, some 6, false, .official⟩ := rfl
theorem opcodeRow_0F : opcodeRow 0x0F = ⟨.slo, .absolute, 3, some 6, false, .unofficial⟩ := rfl
theorem opcodeRow_10 : opcodeRow 0x10 = ⟨.bpl, .relative, 2, some 2, false, .official⟩ := rfl
theorem opcodeRow_11 : opcodeRow 0x11 = ⟨.ora, .indirectIndexed, 2, some 5, true, .official⟩ := rfl
theorem opcodeRow_12 : opcodeRow 0x12 = ⟨.jam, .implied, 1, none, false, .halt⟩ := rfl
theorem opcodeRow_13 : opcodeRow 0x13 = ⟨.slo, .indirectIndexed, 2, some 8, false, .unofficial⟩ := rfl
theorem opcodeRow_14 : opcodeRow 0x14 = ⟨.nop, .zeroPageX, 2, some 4, false, .unofficial⟩ := rfl
theorem opcodeRow_15 : opcodeRow 0x15 = ⟨.ora, .zeroPageX, 2, some 4, false, .official⟩ := rfl
theorem opcodeRow_16 : opcodeRow 0x16 = ⟨.asl, .zeroPageX, 2, some 6, false, .official⟩ := rfl
theorem opcodeRow_17 : opcodeRow 0x17 = ⟨.slo, .zeroPageX, 2, some 6, false, .unofficial⟩ := rfl
theorem opcodeRow_18 : opcodeRow 0x18 = ⟨.clc, .implied, 1, some 2, false, .official⟩ := rfl
theorem opcodeRow_19 : opcodeRow 0x19 = ⟨.ora, .absoluteY, 3, some 4, true, .official⟩ := rfl
theorem opcodeRow_1A : opcodeRow 0x1A = ⟨.nop, .implied, 1, some 2, false, .unofficial⟩ := rfl
theorem opcodeRow_1B : opcodeRow 0x1B = ⟨.slo, .absoluteY, 3, some 7, false, .unofficial⟩ := rfl
theorem opcodeRow_1C : opcodeRow 0x1C = ⟨.nop, .absoluteX, 3, some 4, true, .unofficial⟩ := rfl
theorem opcodeRow_1D : opcodeRow 0x1D = ⟨.ora, .absoluteX, 3, some 4, true, .official⟩ := rfl
theorem opcodeRow_1E : opcodeRow 0x1E = ⟨.asl, .absoluteX, 3, some 7, false, .official⟩ := rfl
theorem opcodeRow_1F : opcodeRow 0x1F = ⟨.slo, .absoluteX, 3, some 7, false, .unofficial⟩ := rfl
theorem opcodeRow_20 : opcodeRow 0x20 = ⟨.jsr, .absolute, 3, some 6, false, .official⟩ := rfl
theorem opcodeRow_21 : opcodeRow 0x21 = ⟨.and, .indexedIndirect, 2, some 6, false, .official⟩ := rfl
theorem opcodeRow_22 : opcodeRow 0x22 = ⟨.jam, .implied, 1, none, false, .halt⟩ := rfl
theorem opcodeRow_23 : opcodeRow 0x23 = ⟨.rla, .indexedIndirect, 2, some 8, false, .unofficial⟩ := rfl
theorem opcodeRow_24 : opcodeRow 0x24 = ⟨.bit, .zeroPage, 2, some 3, false, .official⟩ := rfl
theorem opcodeRow_25 : opcodeRow 0x25 = ⟨.and, .zeroPage, 2, some 3, false, .official⟩ := rfl
theorem opcodeRow_26 : opcodeRow 0x26 = ⟨.rol, .zeroPage, 2, some 5, false, .official⟩ := rfl
theorem opcodeRow_27 : opcodeRow 0x27 = ⟨.rla, .zeroPage, 2, some 5, false, .unofficial⟩ := rfl
theorem opcodeRow_28 : opcodeRow 0x28 = ⟨.plp, .implied, 1, some 4, false, .official⟩ := rfl
theorem opcodeRow_29 : opcodeRow 0x29 = ⟨.and, .immediate, 2, some 2, false, .official⟩ := rfl
theorem opcodeRow_2A : opcodeRow 0x2A = ⟨.rol, .accumulator, 1, some 2, false, .official⟩ := rfl
theorem opcodeRow_2B : opcodeRow 0x2B = ⟨.anc, .immediate, 2, some 2, false, .unofficial⟩ := rfl
theorem opcodeRow_2C : opcodeRow 0x2C = ⟨.bit, .absolute, 3, some 4, false, .official⟩ := rfl
theorem opcodeRow_2D : opcodeRow 0x2D = ⟨.and, .absolute, 3, some 4, false, .official⟩ := rfl
theorem opcodeRow_2E : opcodeRow 0x2E = ⟨.rol, .absolute, 3, some 6, false, .official⟩ := rfl
theorem opcodeRow_2F : opcodeRow 0x2F = ⟨.rla, .absolute, 3, some 6, false, .unofficial⟩ := rfl
theorem opcodeRow_30 : opcodeRow 0x30 = ⟨.bmi, .relative, 2, some 2, false, .official⟩ := rfl
theorem opcodeRow_31 : opcodeRow 0x31 = ⟨.and, .indirectIndexed, 2, some 5, true, .official⟩ := rfl
theorem opcodeRow_32 : opcodeRow 0x32 = ⟨.jam, .implied, 1, none, false, .halt⟩ := rfl
theorem opcodeRow_33 : opcodeRow 0x33 = ⟨.rla, .indirectIndexed, 2, some 8, false, .unofficial⟩ := rfl
theorem opcodeRow_34 : opcodeRow 0x34 = ⟨.nop, .zeroPageX, 2, some 4, false, .unofficial⟩ := rfl
theorem opcodeRow_35 : opcodeRow 0x35 = ⟨.and, .zeroPageX, 2, some 4, false, .official⟩ := rfl
theorem opcodeRow_36 : opcodeRow 0x36 = ⟨.rol, .zeroPageX, 2, some 6, false, .official⟩ := rfl
theorem opcodeRow_37 : opcodeRow 0x37 = ⟨.rla, .zeroPageX, 2, some 6, false, .unofficial⟩ := rfl
theorem opcodeRow_38 : opcodeRow 0x38 = ⟨.sec, .implied, 1, some 2, false, .official⟩ := rfl
theorem opcodeRow_39 : opcodeRow 0x39 = ⟨.and, .absoluteY, 3, some 4, true, .official⟩ := rfl
theorem opcodeRow_3A : opcodeRow 0x3A = ⟨.nop, .implied, 1, some 2, false, .unofficial⟩ := rfl
theorem opcodeRow_3B : opcodeRow 0x3B = ⟨.rla, .absoluteY, 3, some 7, false, .unofficial⟩ := rfl
theorem opcodeRow_3C : opcodeRow 0x3C = ⟨.nop, .absoluteX, 3, some 4, true, .unofficial⟩ := rfl
theorem opcodeRow_3D : opcodeRow 0x3D = ⟨.and, .absoluteX, 3, some 4, true, .official⟩ := rfl
theorem opcodeRow_3E : opcodeRow 0x3E = ⟨.rol, .absoluteX, 3, some 7, false, .official⟩ := rfl
theorem opcodeRow_3F : opcodeRow 0x3F = ⟨.rla, .absoluteX, 3, some 7, false, .unofficial⟩ := rfl
theorem opcodeRow_40 : opcodeRow 0x40 = ⟨.rti, .implied, 1, some 6, false, .official⟩ := rfl
theorem opcodeRow_41 : opcodeRow 0x41 = ⟨.eor, .indexedIndirect, 2, some 6, false, .official⟩ := rfl
theorem opcodeRow_42 : opcodeRow 0x42 = ⟨.jam, .implied, 1, none, false, .halt⟩ := rfl
theorem opcodeRow_43 : opcodeRow 0x43 = ⟨.sre, .indexedIndirect, 2, some 8, false, .unofficial⟩ := rfl
theorem opcodeRow_44 : opcodeRow 0x44 = ⟨.nop, .zeroPage, 2, some 3, false, .unofficial⟩ := rfl
theorem opcodeRow_45 : opcodeRow 0x45 = ⟨.eor, .zeroPage, 2, some 3, false, .official⟩ := rfl
theorem opcodeRow_46 : opcodeRow 0x46 = ⟨.lsr, .zeroPage, 2, some 5, false, .official⟩ := rfl
theorem opcodeRow_47 : opcodeRow 0x47 = ⟨.sre, .zeroPage, 2, some 5, false, .unofficial⟩ := rfl
theorem opcodeRow_48 : opcodeRow 0x48 = ⟨.pha, .implied, 1, some 3, false, .official⟩ := rfl
theorem opcodeRow_49 : opcodeRow 0x49 = ⟨.eor, .immediate, 2, some 2, false, .official⟩ := rfl
theorem opcodeRow_4A : opcodeRow 0x4A = ⟨.lsr, .accumulator, 1, some 2, false, .official⟩ := rfl
theorem opcodeRow_4B : opcodeRow 0x4B = ⟨.alr, .immediate, 2, some 2, false, .unofficial⟩ := rfl
theorem opcodeRow_4C : opcodeRow 0x4C = ⟨.jmp, .absolute, 3, some 3, false, .official⟩ := rfl
theorem opcodeRow_4D : opcodeRow 0x4D = ⟨.eor, .absolute, 3, some 4, false, .official⟩ := rfl
theorem opcodeRow_4E : opcodeRow 0x4E = ⟨.lsr, .absolute, 3, some 6, false, .official⟩ := rfl
theorem opcodeRow_4F : opcodeRow 0x4F = ⟨.sre, .absolute, 3, some 6, false, .unofficial⟩ := rfl
theorem opcodeRow_50 : opcodeRow 0x50 = ⟨.bvc, .relative, 2, some 2, false, .official⟩ := rfl
theorem opcodeRow_51 : opcodeRow 0x51 = ⟨.eor, .indirectIndexed, 2, some 5, true, .official⟩ := rfl
theorem opcodeRow_52 : opcodeRow 0x52 = ⟨.jam, .implied, 1, none, false, .halt⟩ := rfl
theorem opcodeRow_53 : opcodeRow 0x53 = ⟨.sre, .indirectIndexed, 2, some 8, false, .unofficial⟩ := rfl
theorem opcodeRow_54 : opcodeRow 0x54 = ⟨.nop, .zeroPageX, 2, some 4, false, .unofficial⟩ := rfl
theorem opcodeRow_55 : opcodeRow 0x55 = ⟨.eor, .zeroPageX, 2, some 4, false, .official⟩ := rfl
theorem opcodeRow_56 : opcodeRow 0x56 = ⟨.lsr, .zeroPageX, 2, some 6, false, .official⟩ := rfl
theorem opcodeRow_57 : opcodeRow 0x57 = ⟨.sre, .zeroPageX, 2, some 6, false, .unofficial⟩ := rfl
theorem opcodeRow_58 : opcodeRow 0x58 = ⟨.cli, .implied, 1, some 2, false, .official⟩ := rfl
theorem opcodeRow_59 : opcodeRow 0x59 = ⟨.eor, .absoluteY, 3, some 4, true, .official⟩ := rfl
theorem opcodeRow_5A : opcodeRow 0x5A = ⟨.nop, .implied, 1, some 2, false, .unofficial⟩ := rfl
theorem opcodeRow_5B : opcodeRow 0x5B = ⟨.sre, .absoluteY, 3, some 7, false, .unofficial⟩ := rfl
theorem opcodeRow_5C : opcodeRow 0x5C = ⟨.nop, .absoluteX, 3, some 4, true, .unofficial⟩ := rfl
theorem opcodeRow_5D : opcodeRow 0x5D = ⟨.eor, .absoluteX, 3, some 4, true, .official⟩ := rfl
theorem opcodeRow_5E : opcodeRow 0x5E = ⟨.lsr, .absoluteX, 3, some 7, false, .official⟩ := rfl
theorem opcodeRow_5F : opcodeRow 0x5F = ⟨.sre, .absoluteX, 3, some 7, false, .unofficial⟩ := rfl
theorem opcodeRow_60 : opcodeRow 0x60 = ⟨.rts, .implied, 1, some 6, false, .official⟩ := rfl
theorem opcodeRow_61 : opcodeRow 0x61 = ⟨.adc, .indexedIndirect, 2, some 6, false, .official⟩ := rfl
theorem opcodeRow_62 : opcodeRow 0x62 = ⟨.jam, .implied, 1, none, false, .halt⟩ := rfl
theorem opcodeRow_63 : opcodeRow 0x63 = ⟨.rra, .indexedIndirect, 2, some 8, false, .unofficial⟩ := rfl
theorem opcodeRow_64 : opcodeRow 0x64 = ⟨.nop, .zeroPage, 2, some 3, false, .unofficial⟩ := rfl
theorem opcodeRow_65 : opcodeRow 0x65 = ⟨.adc, .zeroPage, 2, some 3, false, .official⟩ := rfl
theorem opcodeRow_66 : opcodeRow 0x66 = ⟨.ror, .zeroPage, 2, some 5, false, .official⟩ := rfl
theorem opcodeRow_67 : opcodeRow 0x67 = ⟨.rra, .zeroPage, 2, some 5, false, .unofficial⟩ := rfl
theorem opcodeRow_68 : opcodeRow 0x68 = ⟨.pla, .implied, 1, some 4, false, .official⟩ := rfl
theorem opcodeRow_69 : opcodeRow 0x69 = ⟨.adc, .immediate, 2, some 2, false, .official⟩ := rfl
theorem opcodeRow_6A : opcodeRow 0x6A = ⟨.ror, .accumulator, 1, some 2, false, .official⟩ := rfl
theorem opcodeRow_6B : opcodeRow 0x6B = ⟨.arr, .immediate, 2, some 2, false, .unofficial⟩ := rfl
theorem opcodeRow_6C : opcodeRow 0x6C = ⟨.jmp, .indirect, 3, some 5, false, .official⟩ := rfl
theorem opcodeRow_6D : opcodeRow 0x6D = ⟨.adc, .absolute, 3, some 4, false, .official⟩ := rfl
theorem opcodeRow_6E : opcodeRow 0x6E = ⟨.ror, .absolute, 3, some 6, false, .official⟩ := rfl
theorem opcodeRow_6F : opcodeRow 0x6F = ⟨.rra, .absolute, 3, some 6, false, .unofficial⟩ := rfl
theorem opcodeRow_70 : opcodeRow 0x70 = ⟨.bvs, .relative, 2, some 2, false, .official⟩ := rfl
theorem opcodeRow_71 : opcodeRow 0x71 = ⟨.adc, .indirectIndexed, 2, some 5, true, .official⟩ := rfl
theorem opcodeRow_72 : opcodeRow 0x72 = ⟨.jam, .implied, 1, none, false, .halt⟩ := rfl
theorem opcodeRow_73 : opcodeRow 0x73 = ⟨.rra, .indirectIndexed, 2, some 8, false, .unofficial⟩ := rfl
theorem opcodeRow_74 : opcodeRow 0x74 = ⟨.nop, .zeroPageX, 2, some 4, false, .unofficial⟩ := rfl
theorem opcodeRow_75 : opcodeRow 0x75 = ⟨.adc, .zeroPageX, 2, some 4, false, .official⟩ := rfl
theorem opcodeRow_76 : opcodeRow 0x76 = ⟨.ror, .zeroPageX, 2, some 6, false, .official⟩ := rfl
theorem opcodeRow_77 : opcodeRow 0x77 = ⟨.rra, .zeroPageX, 2, some 6, false, .unofficial⟩ := rfl
theorem opcodeRow_78 : opcodeRow 0x78 = ⟨.sei, .implied, 1, some 2, false, .official⟩ := rfl
theorem opcodeRow_79 : opcodeRow 0x79 = ⟨.adc, .absoluteY, 3, some 4, true, .official⟩ := rfl
theorem opcodeRow_7A : opcodeRow 0x7A = ⟨.nop, .implied, 1, some 2, false, .unofficial⟩ := rfl
theorem opcodeRow_7B : opcodeRow 0x7B = ⟨.rra, .absoluteY, 3, some 7, false, .unofficial⟩ := rfl
theorem opcodeRow_7C : opcodeRow 0x7C = ⟨.nop, .absoluteX, 3, some 4, true, .unofficial⟩ := rfl
theorem opcodeRow_7D : opcodeRow 0x7D = ⟨.adc, .absoluteX, 3, some 4, true, .official⟩ := rfl
theorem opcodeRow_7E : opcodeRow 0x7E = ⟨.ror, .absoluteX, 3, some 7, false, .official⟩ := rfl
theorem opcodeRow_7F : opcodeRow 0x7F = ⟨.rra, .absoluteX, 3, some 7, false, .unofficial⟩ := rfl
theorem opcodeRow_80 : opcodeRow 0x80 = ⟨.nop, .immediate, 2, some 2, false, .unofficial⟩ := rfl
theorem opcodeRow_81 : opcodeRow 0x81 = ⟨.sta, .indexedIndirect, 2, some 6, false, .official⟩ := rfl
theorem opcodeRow_82 : opcodeRow 0x82 = ⟨.nop, .immediate, 2, some 2, false, .unofficial⟩ := rfl
theorem opcodeRow_83 : opcodeRow 0x83 = ⟨.sax, .indexedIndirect, 2, some 6, false, .unofficial⟩ := rfl
theorem opcodeRow_84 : opcodeRow 0x84 = ⟨.sty, .zeroPage, 2, some 3, false, .official⟩ := rfl
theorem opcodeRow_85 : opcodeRow 0x85 = ⟨.sta, .zeroPage, 2, some 3, false, .official⟩ := rfl
theorem opcodeRow_86 : opcodeRow 0x86 = ⟨.stx, .zeroPage, 2, some 3, false, .official⟩ := rfl
theorem opcodeRow_87 : opcodeRow 0x87 = ⟨.sax, .zeroPage, 2, some 3, false, .unofficial⟩ := rfl
theorem opcodeRow_88 : opcodeRow 0x88 = ⟨.dey, .implied, 1, some 2, false, .official⟩ := rfl
theorem opcodeRow_89 : opcodeRow 0x89 = ⟨.nop, .immediate, 2, some 2, false, .unofficial⟩ := rfl
theorem opcodeRow_8A : opcodeRow 0x8A = ⟨.txa, .implied, 1, some 2, false, .official⟩ := rfl
theorem opcodeRow_8B : opcodeRow 0x8B = ⟨.xaa, .immediate, 2, none, false, .refused⟩ := rfl
theorem opcodeRow_8C : opcodeRow 0x8C = ⟨.sty, .absolute, 3, some 4, false, .official⟩ := rfl
theorem opcodeRow_8D : opcodeRow 0x8D = ⟨.sta, .absolute, 3, some 4, false, .official⟩ := rfl
theorem opcodeRow_8E : opcodeRow 0x8E = ⟨.stx, .absolute, 3, some 4, false, .official⟩ := rfl
theorem opcodeRow_8F : opcodeRow 0x8F = ⟨.sax, .absolute, 3, some 4, false, .unofficial⟩ := rfl
theorem opcodeRow_90 : opcodeRow 0x90 = ⟨.bcc, .relative, 2, some 2, false, .official⟩ := rfl
theorem opcodeRow_91 : opcodeRow 0x91 = ⟨.sta, .indirectIndexed, 2, some 6, false, .official⟩ := rfl
theorem opcodeRow_92 : opcodeRow 0x92 = ⟨.jam, .implied, 1, none, false, .halt⟩ := rfl
theorem opcodeRow_93 : opcodeRow 0x93 = ⟨.ahx, .indirectIndexed, 2, none, false, .refused⟩ := rfl
theorem opcodeRow_94 : opcodeRow 0x94 = ⟨.sty, .zeroPageX, 2, some 4, false, .official⟩ := rfl
theorem opcodeRow_95 : opcodeRow 0x95 = ⟨.sta, .zeroPageX, 2, some 4, false, .official⟩ := rfl
theorem opcodeRow_96 : opcodeRow 0x96 = ⟨.stx, .zeroPageY, 2, some 4, false, .official⟩ := rfl
theorem opcodeRow_97 : opcodeRow 0x97 = ⟨.sax, .zeroPageY, 2, some 4, false, .unofficial⟩ := rfl
theorem opcodeRow_98 : opcodeRow 0x98 = ⟨.tya, .implied, 1, some 2, false, .official⟩ := rfl
theorem opcodeRow_99 : opcodeRow 0x99 = ⟨.sta, .absoluteY, 3, some 5, false, .official⟩ := rfl
theorem opcodeRow_9A : opcodeRow 0x9A = ⟨.txs, .implied, 1, some 2, false, .official⟩ := rfl
theorem opcodeRow_9B : opcodeRow 0x9B = ⟨.tas, .absoluteY, 3, none, false, .refused⟩ := rfl
theorem opcodeRow_9C : opcodeRow 0x9C = ⟨.shy, .absoluteX, 3, none, false, .refused⟩ := rfl
theorem opcodeRow_9D : opcodeRow 0x9D = ⟨.sta, .absoluteX, 3, some 5, false, .official⟩ := rfl
theorem opcodeRow_9E : opcodeRow 0x9E = ⟨.shx, .absoluteY, 3, none, false, .refused⟩ := rfl
theorem opcodeRow_9F : opcodeRow 0x9F = ⟨.ahx, .absoluteY, 3, none, false, .refused⟩ := rfl
theorem opcodeRow_A0 : opcodeRow 0xA0 = ⟨.ldy, .immediate, 2, some 2, false, .official⟩ := rfl
theorem opcodeRow_A1 : opcodeRow 0xA1 = ⟨.lda, .indexedIndirect, 2, some 6, false, .official⟩ := rfl
theorem opcodeRow_A2 : opcodeRow 0xA2 = ⟨.ldx, .immediate, 2, some 2, false, .official⟩ := rfl
theorem opcodeRow_A3 : opcodeRow 0xA3 = ⟨.lax, .indexedIndirect, 2, some 6, false, .unofficial⟩ := rfl
theorem opcodeRow_A4 : opcodeRow 0xA4 = ⟨.ldy, .zeroPage, 2, some 3, false, .official⟩ := rfl
theorem opcodeRow_A5 : opcodeRow 0xA5 = ⟨.lda, .zeroPage, 2, some 3, false, .official⟩ := rfl
theorem opcodeRow_A6 : opcodeRow 0xA6 = ⟨.ldx, .zeroPage, 2, some 3, false, .official⟩ := rfl
theorem opcodeRow_A7 : opcodeRow 0xA7 = ⟨.lax, .zeroPage, 2, some 3, false, .unofficial⟩ := rfl
theorem opcodeRow_A8 : opcodeRow 0xA8 = ⟨.tay, .implied, 1, some 2, false, .official⟩ := rfl
theorem opcodeRow_A9 : opcodeRow 0xA9 = ⟨.lda, .immediate, 2, some 2, false, .official⟩ := rfl
theorem opcodeRow_AA : opcodeRow 0xAA = ⟨.tax, .implied, 1, some 2, false, .official⟩ := rfl
theorem opcodeRow_AB : opcodeRow 0xAB = ⟨.lxa, .immediate, 2, none, false, .refused⟩ := rfl
theorem opcodeRow_AC : opcodeRow 0xAC = ⟨.ldy, .absolute, 3, some 4, false, .official⟩ := rfl
theorem opcodeRow_AD : opcodeRow 0xAD = ⟨.lda, .absolute, 3, some 4, false, .official⟩ := rfl
theorem opcodeRow_AE : opcodeRow 0xAE = ⟨.ldx, .absolute, 3, some 4, false, .official⟩ := rfl
theorem opcodeRow_AF : opcodeRow 0xAF = ⟨.lax, .absolute, 3, some 4, false, .unofficial⟩ := rfl
theorem opcodeRow_B0 : opcodeRow 0xB0 = ⟨.bcs, .relative, 2, some 2, false, .official⟩ := rfl
theorem opcodeRow_B1 : opcodeRow 0xB1 = ⟨.lda, .indirectIndexed, 2, some 5, true, .official⟩ := rfl
theorem opcodeRow_B2 : opcodeRow 0xB2 = ⟨.jam, .implied, 1, none, false, .halt⟩ := rfl
theorem opcodeRow_B3 : opcodeRow 0xB3 = ⟨.lax, .indirectIndexed, 2, some 5, true, .unofficial⟩ := rfl
theorem opcodeRow_B4 : opcodeRow 0xB4 = ⟨.ldy, .zeroPageX, 2, some 4, false, .official⟩ := rfl
theorem opcodeRow_B5 : opcodeRow 0xB5 = ⟨.lda, .zeroPageX, 2, some 4, false, .official⟩ := rfl
theorem opcodeRow_B6 : opcodeRow 0xB6 = ⟨.ldx, .zeroPageY, 2, some 4, false, .official⟩ := rfl
theorem opcodeRow_B7 : opcodeRow 0xB7 = ⟨.lax, .zeroPageY, 2, some 4, false, .unofficial⟩ := rfl
theorem opcodeRow_B8 : opcodeRow 0xB8 = ⟨.clv, .implied, 1, some 2, false, .official⟩ := rfl
theorem opcodeRow_B9 : opcodeRow 0xB9 = ⟨.lda, .absoluteY, 3, some 4, true, .official⟩ := rfl
theorem opcodeRow_BA : opcodeRow 0xBA = ⟨.tsx, .implied, 1, some 2, false, .official⟩ := rfl
theorem opcodeRow_BB : opcodeRow 0xBB = ⟨.las, .absoluteY, 3, none, false, .refused⟩ := rfl
theorem opcodeRow_BC : opcodeRow 0xBC = ⟨.ldy, .absoluteX, 3, some 4, true, .official⟩ := rfl
theorem opcodeRow_BD : opcodeRow 0xBD = ⟨.lda, .absoluteX, 3, some 4, true, .official⟩ := rfl
theorem opcodeRow_BE : opcodeRow 0xBE = ⟨.ldx, .absoluteY, 3, some 4, true, .official⟩ := rfl
theorem opcodeRow_BF : opcodeRow 0xBF = ⟨.lax, .absoluteY, 3, some 4, true, .unofficial⟩ := rfl
theorem opcodeRow_C0 : opcodeRow 0xC0 = ⟨.cpy, .immediate, 2, some 2, false, .official⟩ := rfl
theorem opcodeRow_C1 : opcodeRow 0xC1 = ⟨.cmp, .indexedIndirect, 2, some 6, false, .official⟩ := rfl
theorem opcodeRow_C2 : opcodeRow 0xC2 = ⟨.nop, .immediate, 2, some 2, false, .unofficial⟩ := rfl
theorem opcodeRow_C3 : opcodeRow 0xC3 = ⟨.dcp, .indexedIndirect, 2, some 8, false, .unofficial⟩ := rfl
theorem opcodeRow_C4 : opcodeRow 0xC4 = ⟨.cpy, .zeroPage, 2, some 3, false, .official⟩ := rfl
theorem opcodeRow_C5 : opcodeRow 0xC5 = ⟨.cmp, .zeroPage, 2, some 3, false, .official⟩ := rfl
theorem opcodeRow_C6 : opcodeRow 0xC6 = ⟨.dec, .zeroPage, 2, some 5, false, .official⟩ := rfl
theorem opcodeRow_C7 : opcodeRow 0xC7 = ⟨.dcp, .zeroPage, 2, some 5, false, .unofficial⟩ := rfl
theorem opcodeRow_C8 : opcodeRow 0xC8 = ⟨.iny, .implied, 1, some 2, false, .official⟩ := rfl
theorem opcodeRow_C9 : opcodeRow 0xC9 = ⟨.cmp, .immediate, 2, some 2, false, .official⟩ := rfl
theorem opcodeRow_CA : opcodeRow 0xCA = ⟨.dex, .implied, 1, some 2, false, .official⟩ := rfl
theorem opcodeRow_CB : opcodeRow 0xCB = ⟨.axs, .immediate, 2, some 2, false, .unofficial⟩ := rfl
theorem opcodeRow_CC : opcodeRow 0xCC = ⟨.cpy, .absolute, 3, some 4, false, .official⟩ := rfl
theorem opcodeRow_CD : opcodeRow 0xCD = ⟨.cmp, .absolute, 3, some 4, false, .official⟩ := rfl
theorem opcodeRow_CE : opcodeRow 0xCE = ⟨.dec, .absolute, 3, some 6, false, .official⟩ := rfl
theorem opcodeRow_CF : opcodeRow 0xCF = ⟨.dcp, .absolute, 3, some 6, false, .unofficial⟩ := rfl
theorem opcodeRow_D0 : opcodeRow 0xD0 = ⟨.bne, .relative, 2, some 2, false, .official⟩ := rfl
theorem opcodeRow_D1 : opcodeRow 0xD1 = ⟨.cmp, .indirectIndexed, 2, some 5, true, .official⟩ := rfl
theorem opcodeRow_D2 : opcodeRow 0xD2 = ⟨.jam, .implied, 1, none, false, .halt⟩ := rfl
theorem opcodeRow_D3 : opcodeRow 0xD3 = ⟨.dcp, .indirectIndexed, 2, some 8, false, .unofficial⟩ := rfl
theorem opcodeRow_D4 : opcodeRow 0xD4 = ⟨.nop, .zeroPageX, 2, some 4, false, .unofficial⟩ := rfl
theorem opcodeRow_D5 : opcodeRow 0xD5 = ⟨.cmp, .zeroPageX, 2, some 4, false, .official⟩ := rfl
theorem opcodeRow_D6 : opcodeRow 0xD6 = ⟨.dec, .zeroPageX, 2, some 6, false, .official⟩ := rfl
theorem opcodeRow_D7 : opcodeRow 0xD7 = ⟨.dcp, .zeroPageX, 2, some 6, false, .unofficial⟩ := rfl
theorem opcodeRow_D8 : opcodeRow 0xD8 = ⟨.cld, .implied, 1, some 2, false, .official⟩ := rfl
theorem opcodeRow_D9 : opcodeRow 0xD9 = ⟨.cmp, .absoluteY, 3, some 4, true, .official⟩ := rfl
theorem opcodeRow_DA : opcodeRow 0xDA = ⟨.nop, .implied, 1, some 2, false, .unofficial⟩ := rfl
theorem opcodeRow_DB : opcodeRow 0xDB = ⟨.dcp, .absoluteY, 3, some 7, false, .unofficial⟩ := rfl
theorem opcodeRow_DC : opcodeRow 0xDC = ⟨.nop, .absoluteX, 3, some 4, true, .unofficial⟩ := rfl
theorem opcodeRow_DD : opcodeRow 0xDD = ⟨.cmp, .absoluteX, 3, some 4, true, .official⟩ := rfl
theorem opcodeRow_DE : opcodeRow 0xDE = ⟨.dec, .absoluteX, 3, some 7, false, .official⟩ := rfl
theorem opcodeRow_DF : opcodeRow 0xDF = ⟨.dcp, .absoluteX, 3, some 7, false, .unofficial⟩ := rfl
theorem opcodeRow_E0 : opcodeRow 0xE0 = ⟨.cpx, .immediate, 2, some 2, false, .official⟩ := rfl
theorem opcodeRow_E1 : opcodeRow 0xE1 = ⟨.sbc, .indexedIndirect, 2, some 6, false, .official⟩ := rfl
theorem opcodeRow_E2 : opcodeRow 0xE2 = ⟨.nop, .immediate, 2, some 2, false, .unofficial⟩ := rfl
theorem opcodeRow_E3 : opcodeRow 0xE3 = ⟨.isb, .indexedIndirect, 2, some 8, false, .unofficial⟩ := rfl
theorem opcodeRow_E4 : opcodeRow 0xE4 = ⟨.cpx, .zeroPage, 2, some 3, false, .official⟩ := rfl
theorem opcodeRow_E5 : opcodeRow 0xE5 = ⟨.sbc, .zeroPage, 2, some 3, false, .official⟩ := rfl
theorem opcodeRow_E6 : opcodeRow 0xE6 = ⟨.inc, .zeroPage, 2, some 5, false, .official⟩ := rfl
theorem opcodeRow_E7 : opcodeRow 0xE7 = ⟨.isb, .zeroPage, 2, some 5, false, .unofficial⟩ := rfl
theorem opcodeRow_E8 : opcodeRow 0xE8 = ⟨.inx, .implied, 1, some 2, false, .official⟩ := rfl
theorem opcodeRow_E9 : opcodeRow 0xE9 = ⟨.sbc, .immediate, 2, some 2, false, .official⟩ := rfl
theorem opcodeRow_EA : opcodeRow 0xEA = ⟨.nop, .implied, 1, some 2, false, .official⟩ := rfl
theorem opcodeRow_EB : opcodeRow 0xEB = ⟨.sbc, .immediate, 2, some 2, false, .unofficial⟩ := rfl
theorem opcodeRow_EC : opcodeRow 0xEC = ⟨.cpx, .absolute, 3, some 4, false, .official⟩ := rfl
theorem opcodeRow_ED : opcodeRow 0xED = ⟨.sbc, .absolute, 3, some 4, false, .official⟩ := rfl
theorem opcodeRow_EE : opcodeRow 0xEE = ⟨.inc, .absolute, 3, some 6, false, .official⟩ := rfl
theorem opcodeRow_EF : opcodeRow 0xEF = ⟨.isb, .absolute, 3, some 6, false, .unofficial⟩ := rfl
theorem opcodeRow_F0 : opcodeRow 0xF0 = ⟨.beq, .relative, 2, some 2, false, .official⟩ := rfl
theorem opcodeRow_F1 : opcodeRow 0xF1 = ⟨.sbc, .indirectIndexed, 2, some 5, true, .official⟩ := rfl
theorem opcodeRow_F2 : opcodeRow 0xF2 = ⟨.jam, .implied, 1, none, false, .halt⟩ := rfl
theorem opcodeRow_F3 : opcodeRow 0xF3 = ⟨.isb, .indirectIndexed, 2, some 8, false, .unofficial⟩ := rfl
theorem opcodeRow_F4 : opcodeRow 0xF4 = ⟨.nop, .zeroPageX, 2, some 4, false, .unofficial⟩ := rfl
theorem opcodeRow_F5 : opcodeRow 0xF5 = ⟨.sbc, .zeroPageX, 2, some 4, false, .official⟩ := rfl
theorem opcodeRow_F6 : opcodeRow 0xF6 = ⟨.inc, .zeroPageX, 2, some 6, false, .official⟩ := rfl
theorem opcodeRow_F7 : opcodeRow 0xF7 = ⟨.isb, .zeroPageX, 2, some 6, false, .unofficial⟩ := rfl
theorem opcodeRow_F8 : opcodeRow 0xF8 = ⟨.sed, .implied, 1, some 2, false, .official⟩ := rfl
theorem opcodeRow_F9 : opcodeRow 0xF9 = ⟨.sbc, .absoluteY, 3, some 4, true, .official⟩ := rfl
theorem opcodeRow_FA : opcodeRow 0xFA = ⟨.nop, .implied, 1, some 2, false, .unofficial⟩ := rfl
theorem opcodeRow_FB : opcodeRow 0xFB = ⟨.isb, .absoluteY, 3, some 7, false, .unofficial⟩ := rfl
theorem opcodeRow_FC : opcodeRow 0xFC = ⟨.nop, .absoluteX, 3, some 4, true, .unofficial⟩ := rfl
theorem opcodeRow_FD : opcodeRow 0xFD = ⟨.sbc, .absoluteX, 3, some 4, true, .official⟩ := rfl
theorem opcodeRow_FE : opcodeRow 0xFE = ⟨.inc, .absoluteX, 3, some 7, false, .official⟩ := rfl
theorem opcodeRow_FF : opcodeRow 0xFF = ⟨.isb, .absoluteX, 3, some 7, false, .unofficial⟩ := rfl

/-- The operand from the mode of the opcode's row. -/
theorem Instr.operand_of_row {i : Instr} {r : Row} {b1 b2 : Byte} (h : i.row = r) (h1 : i.encodedByte 1 = b1)
    (h2 : i.encodedByte 2 = b2) : i.operand = Operand.ofBytes r.mode b1 b2 := by
  rw [Instr.operand, h, h1, h2]

@[simp] theorem Instr.kind_brk : Instr.brk.kind = .brk := congrArg Row.kind opcodeRow_00
@[simp] theorem Instr.operand_brk : Instr.brk.operand = .implied :=
  Instr.operand_of_row (i := Instr.brk) opcodeRow_00 rfl rfl
@[simp] theorem Instr.kind_oraIndX (a : Byte) : (Instr.oraIndX a).kind = .ora := congrArg Row.kind opcodeRow_01
@[simp] theorem Instr.operand_oraIndX (a : Byte) : (Instr.oraIndX a).operand = .memory (.indexedIndirect a) :=
  Instr.operand_of_row (i := (Instr.oraIndX a)) opcodeRow_01 rfl rfl
theorem Instr.kind_jam (op : Byte) (h : (Instr.jam op).wellFormed = true) : (Instr.jam op).kind = .jam := by
  simp only [Instr.wellFormed, jamOpcodes, decide_eq_true_eq, List.mem_cons, List.not_mem_nil, or_false] at h
  rcases h with rfl | rfl | rfl | rfl | rfl | rfl | rfl | rfl | rfl | rfl | rfl | rfl
  · exact congrArg Row.kind opcodeRow_02
  · exact congrArg Row.kind opcodeRow_12
  · exact congrArg Row.kind opcodeRow_22
  · exact congrArg Row.kind opcodeRow_32
  · exact congrArg Row.kind opcodeRow_42
  · exact congrArg Row.kind opcodeRow_52
  · exact congrArg Row.kind opcodeRow_62
  · exact congrArg Row.kind opcodeRow_72
  · exact congrArg Row.kind opcodeRow_92
  · exact congrArg Row.kind opcodeRow_B2
  · exact congrArg Row.kind opcodeRow_D2
  · exact congrArg Row.kind opcodeRow_F2

theorem Instr.operand_jam (op : Byte) (h : (Instr.jam op).wellFormed = true) : (Instr.jam op).operand = .implied := by
  simp only [Instr.wellFormed, jamOpcodes, decide_eq_true_eq, List.mem_cons, List.not_mem_nil, or_false] at h
  rcases h with rfl | rfl | rfl | rfl | rfl | rfl | rfl | rfl | rfl | rfl | rfl | rfl
  · exact Instr.operand_of_row (i := Instr.jam 0x02) opcodeRow_02 rfl rfl
  · exact Instr.operand_of_row (i := Instr.jam 0x12) opcodeRow_12 rfl rfl
  · exact Instr.operand_of_row (i := Instr.jam 0x22) opcodeRow_22 rfl rfl
  · exact Instr.operand_of_row (i := Instr.jam 0x32) opcodeRow_32 rfl rfl
  · exact Instr.operand_of_row (i := Instr.jam 0x42) opcodeRow_42 rfl rfl
  · exact Instr.operand_of_row (i := Instr.jam 0x52) opcodeRow_52 rfl rfl
  · exact Instr.operand_of_row (i := Instr.jam 0x62) opcodeRow_62 rfl rfl
  · exact Instr.operand_of_row (i := Instr.jam 0x72) opcodeRow_72 rfl rfl
  · exact Instr.operand_of_row (i := Instr.jam 0x92) opcodeRow_92 rfl rfl
  · exact Instr.operand_of_row (i := Instr.jam 0xB2) opcodeRow_B2 rfl rfl
  · exact Instr.operand_of_row (i := Instr.jam 0xD2) opcodeRow_D2 rfl rfl
  · exact Instr.operand_of_row (i := Instr.jam 0xF2) opcodeRow_F2 rfl rfl

@[simp] theorem Instr.kind_sloIndX (a : Byte) : (Instr.sloIndX a).kind = .slo := congrArg Row.kind opcodeRow_03
@[simp] theorem Instr.operand_sloIndX (a : Byte) : (Instr.sloIndX a).operand = .memory (.indexedIndirect a) :=
  Instr.operand_of_row (i := (Instr.sloIndX a)) opcodeRow_03 rfl rfl
theorem Instr.kind_nopZp (op a : Byte) (h : (Instr.nopZp op a).wellFormed = true) : (Instr.nopZp op a).kind = .nop := by
  simp only [Instr.wellFormed, nopZpOpcodes, decide_eq_true_eq, List.mem_cons, List.not_mem_nil, or_false] at h
  rcases h with rfl | rfl | rfl
  · exact congrArg Row.kind opcodeRow_04
  · exact congrArg Row.kind opcodeRow_44
  · exact congrArg Row.kind opcodeRow_64

theorem Instr.operand_nopZp (op a : Byte) (h : (Instr.nopZp op a).wellFormed = true) : (Instr.nopZp op a).operand = .memory (.zeroPage a) := by
  simp only [Instr.wellFormed, nopZpOpcodes, decide_eq_true_eq, List.mem_cons, List.not_mem_nil, or_false] at h
  rcases h with rfl | rfl | rfl
  · exact Instr.operand_of_row (i := Instr.nopZp 0x04 a) opcodeRow_04 rfl rfl
  · exact Instr.operand_of_row (i := Instr.nopZp 0x44 a) opcodeRow_44 rfl rfl
  · exact Instr.operand_of_row (i := Instr.nopZp 0x64 a) opcodeRow_64 rfl rfl

@[simp] theorem Instr.kind_oraZp (a : Byte) : (Instr.oraZp a).kind = .ora := congrArg Row.kind opcodeRow_05
@[simp] theorem Instr.operand_oraZp (a : Byte) : (Instr.oraZp a).operand = .memory (.zeroPage a) :=
  Instr.operand_of_row (i := (Instr.oraZp a)) opcodeRow_05 rfl rfl
@[simp] theorem Instr.kind_aslZp (a : Byte) : (Instr.aslZp a).kind = .asl := congrArg Row.kind opcodeRow_06
@[simp] theorem Instr.operand_aslZp (a : Byte) : (Instr.aslZp a).operand = .memory (.zeroPage a) :=
  Instr.operand_of_row (i := (Instr.aslZp a)) opcodeRow_06 rfl rfl
@[simp] theorem Instr.kind_sloZp (a : Byte) : (Instr.sloZp a).kind = .slo := congrArg Row.kind opcodeRow_07
@[simp] theorem Instr.operand_sloZp (a : Byte) : (Instr.sloZp a).operand = .memory (.zeroPage a) :=
  Instr.operand_of_row (i := (Instr.sloZp a)) opcodeRow_07 rfl rfl
@[simp] theorem Instr.kind_php : Instr.php.kind = .php := congrArg Row.kind opcodeRow_08
@[simp] theorem Instr.operand_php : Instr.php.operand = .implied :=
  Instr.operand_of_row (i := Instr.php) opcodeRow_08 rfl rfl
@[simp] theorem Instr.kind_oraImm (m : Byte) : (Instr.oraImm m).kind = .ora := congrArg Row.kind opcodeRow_09
@[simp] theorem Instr.operand_oraImm (m : Byte) : (Instr.oraImm m).operand = .immediate m :=
  Instr.operand_of_row (i := (Instr.oraImm m)) opcodeRow_09 rfl rfl
@[simp] theorem Instr.kind_aslAcc : Instr.aslAcc.kind = .asl := congrArg Row.kind opcodeRow_0A
@[simp] theorem Instr.operand_aslAcc : Instr.aslAcc.operand = .accumulator :=
  Instr.operand_of_row (i := Instr.aslAcc) opcodeRow_0A rfl rfl
theorem Instr.kind_ancImm (op m : Byte) (h : (Instr.ancImm op m).wellFormed = true) : (Instr.ancImm op m).kind = .anc := by
  simp only [Instr.wellFormed, ancImmOpcodes, decide_eq_true_eq, List.mem_cons, List.not_mem_nil, or_false] at h
  rcases h with rfl | rfl
  · exact congrArg Row.kind opcodeRow_0B
  · exact congrArg Row.kind opcodeRow_2B

theorem Instr.operand_ancImm (op m : Byte) (h : (Instr.ancImm op m).wellFormed = true) : (Instr.ancImm op m).operand = .immediate m := by
  simp only [Instr.wellFormed, ancImmOpcodes, decide_eq_true_eq, List.mem_cons, List.not_mem_nil, or_false] at h
  rcases h with rfl | rfl
  · exact Instr.operand_of_row (i := Instr.ancImm 0x0B m) opcodeRow_0B rfl rfl
  · exact Instr.operand_of_row (i := Instr.ancImm 0x2B m) opcodeRow_2B rfl rfl

@[simp] theorem Instr.kind_nopAbs (w : Addr) : (Instr.nopAbs w).kind = .nop := congrArg Row.kind opcodeRow_0C
@[simp] theorem Instr.operand_nopAbs (w : Addr) : (Instr.nopAbs w).operand = .memory (.absolute w) :=
  (Instr.operand_of_row (i := (Instr.nopAbs w)) opcodeRow_0C rfl rfl).trans (congrArg (fun w => Operand.memory (.absolute w)) (word16_hi_lo w))
@[simp] theorem Instr.kind_oraAbs (w : Addr) : (Instr.oraAbs w).kind = .ora := congrArg Row.kind opcodeRow_0D
@[simp] theorem Instr.operand_oraAbs (w : Addr) : (Instr.oraAbs w).operand = .memory (.absolute w) :=
  (Instr.operand_of_row (i := (Instr.oraAbs w)) opcodeRow_0D rfl rfl).trans (congrArg (fun w => Operand.memory (.absolute w)) (word16_hi_lo w))
@[simp] theorem Instr.kind_aslAbs (w : Addr) : (Instr.aslAbs w).kind = .asl := congrArg Row.kind opcodeRow_0E
@[simp] theorem Instr.operand_aslAbs (w : Addr) : (Instr.aslAbs w).operand = .memory (.absolute w) :=
  (Instr.operand_of_row (i := (Instr.aslAbs w)) opcodeRow_0E rfl rfl).trans (congrArg (fun w => Operand.memory (.absolute w)) (word16_hi_lo w))
@[simp] theorem Instr.kind_sloAbs (w : Addr) : (Instr.sloAbs w).kind = .slo := congrArg Row.kind opcodeRow_0F
@[simp] theorem Instr.operand_sloAbs (w : Addr) : (Instr.sloAbs w).operand = .memory (.absolute w) :=
  (Instr.operand_of_row (i := (Instr.sloAbs w)) opcodeRow_0F rfl rfl).trans (congrArg (fun w => Operand.memory (.absolute w)) (word16_hi_lo w))
@[simp] theorem Instr.kind_bpl (d : Byte) : (Instr.bpl d).kind = .bpl := congrArg Row.kind opcodeRow_10
@[simp] theorem Instr.operand_bpl (d : Byte) : (Instr.bpl d).operand = .relative d :=
  Instr.operand_of_row (i := (Instr.bpl d)) opcodeRow_10 rfl rfl
@[simp] theorem Instr.kind_oraIndY (a : Byte) : (Instr.oraIndY a).kind = .ora := congrArg Row.kind opcodeRow_11
@[simp] theorem Instr.operand_oraIndY (a : Byte) : (Instr.oraIndY a).operand = .memory (.indirectIndexed a) :=
  Instr.operand_of_row (i := (Instr.oraIndY a)) opcodeRow_11 rfl rfl
@[simp] theorem Instr.kind_sloIndY (a : Byte) : (Instr.sloIndY a).kind = .slo := congrArg Row.kind opcodeRow_13
@[simp] theorem Instr.operand_sloIndY (a : Byte) : (Instr.sloIndY a).operand = .memory (.indirectIndexed a) :=
  Instr.operand_of_row (i := (Instr.sloIndY a)) opcodeRow_13 rfl rfl
theorem Instr.kind_nopZpX (op a : Byte) (h : (Instr.nopZpX op a).wellFormed = true) : (Instr.nopZpX op a).kind = .nop := by
  simp only [Instr.wellFormed, nopZpXOpcodes, decide_eq_true_eq, List.mem_cons, List.not_mem_nil, or_false] at h
  rcases h with rfl | rfl | rfl | rfl | rfl | rfl
  · exact congrArg Row.kind opcodeRow_14
  · exact congrArg Row.kind opcodeRow_34
  · exact congrArg Row.kind opcodeRow_54
  · exact congrArg Row.kind opcodeRow_74
  · exact congrArg Row.kind opcodeRow_D4
  · exact congrArg Row.kind opcodeRow_F4

theorem Instr.operand_nopZpX (op a : Byte) (h : (Instr.nopZpX op a).wellFormed = true) : (Instr.nopZpX op a).operand = .memory (.zeroPageX a) := by
  simp only [Instr.wellFormed, nopZpXOpcodes, decide_eq_true_eq, List.mem_cons, List.not_mem_nil, or_false] at h
  rcases h with rfl | rfl | rfl | rfl | rfl | rfl
  · exact Instr.operand_of_row (i := Instr.nopZpX 0x14 a) opcodeRow_14 rfl rfl
  · exact Instr.operand_of_row (i := Instr.nopZpX 0x34 a) opcodeRow_34 rfl rfl
  · exact Instr.operand_of_row (i := Instr.nopZpX 0x54 a) opcodeRow_54 rfl rfl
  · exact Instr.operand_of_row (i := Instr.nopZpX 0x74 a) opcodeRow_74 rfl rfl
  · exact Instr.operand_of_row (i := Instr.nopZpX 0xD4 a) opcodeRow_D4 rfl rfl
  · exact Instr.operand_of_row (i := Instr.nopZpX 0xF4 a) opcodeRow_F4 rfl rfl

@[simp] theorem Instr.kind_oraZpX (a : Byte) : (Instr.oraZpX a).kind = .ora := congrArg Row.kind opcodeRow_15
@[simp] theorem Instr.operand_oraZpX (a : Byte) : (Instr.oraZpX a).operand = .memory (.zeroPageX a) :=
  Instr.operand_of_row (i := (Instr.oraZpX a)) opcodeRow_15 rfl rfl
@[simp] theorem Instr.kind_aslZpX (a : Byte) : (Instr.aslZpX a).kind = .asl := congrArg Row.kind opcodeRow_16
@[simp] theorem Instr.operand_aslZpX (a : Byte) : (Instr.aslZpX a).operand = .memory (.zeroPageX a) :=
  Instr.operand_of_row (i := (Instr.aslZpX a)) opcodeRow_16 rfl rfl
@[simp] theorem Instr.kind_sloZpX (a : Byte) : (Instr.sloZpX a).kind = .slo := congrArg Row.kind opcodeRow_17
@[simp] theorem Instr.operand_sloZpX (a : Byte) : (Instr.sloZpX a).operand = .memory (.zeroPageX a) :=
  Instr.operand_of_row (i := (Instr.sloZpX a)) opcodeRow_17 rfl rfl
@[simp] theorem Instr.kind_clc : Instr.clc.kind = .clc := congrArg Row.kind opcodeRow_18
@[simp] theorem Instr.operand_clc : Instr.clc.operand = .implied :=
  Instr.operand_of_row (i := Instr.clc) opcodeRow_18 rfl rfl
@[simp] theorem Instr.kind_oraAbsY (w : Addr) : (Instr.oraAbsY w).kind = .ora := congrArg Row.kind opcodeRow_19
@[simp] theorem Instr.operand_oraAbsY (w : Addr) : (Instr.oraAbsY w).operand = .memory (.absoluteY w) :=
  (Instr.operand_of_row (i := (Instr.oraAbsY w)) opcodeRow_19 rfl rfl).trans (congrArg (fun w => Operand.memory (.absoluteY w)) (word16_hi_lo w))
theorem Instr.kind_nopImp (op : Byte) (h : (Instr.nopImp op).wellFormed = true) : (Instr.nopImp op).kind = .nop := by
  simp only [Instr.wellFormed, nopImpOpcodes, decide_eq_true_eq, List.mem_cons, List.not_mem_nil, or_false] at h
  rcases h with rfl | rfl | rfl | rfl | rfl | rfl
  · exact congrArg Row.kind opcodeRow_1A
  · exact congrArg Row.kind opcodeRow_3A
  · exact congrArg Row.kind opcodeRow_5A
  · exact congrArg Row.kind opcodeRow_7A
  · exact congrArg Row.kind opcodeRow_DA
  · exact congrArg Row.kind opcodeRow_FA

theorem Instr.operand_nopImp (op : Byte) (h : (Instr.nopImp op).wellFormed = true) : (Instr.nopImp op).operand = .implied := by
  simp only [Instr.wellFormed, nopImpOpcodes, decide_eq_true_eq, List.mem_cons, List.not_mem_nil, or_false] at h
  rcases h with rfl | rfl | rfl | rfl | rfl | rfl
  · exact Instr.operand_of_row (i := Instr.nopImp 0x1A) opcodeRow_1A rfl rfl
  · exact Instr.operand_of_row (i := Instr.nopImp 0x3A) opcodeRow_3A rfl rfl
  · exact Instr.operand_of_row (i := Instr.nopImp 0x5A) opcodeRow_5A rfl rfl
  · exact Instr.operand_of_row (i := Instr.nopImp 0x7A) opcodeRow_7A rfl rfl
  · exact Instr.operand_of_row (i := Instr.nopImp 0xDA) opcodeRow_DA rfl rfl
  · exact Instr.operand_of_row (i := Instr.nopImp 0xFA) opcodeRow_FA rfl rfl

@[simp] theorem Instr.kind_sloAbsY (w : Addr) : (Instr.sloAbsY w).kind = .slo := congrArg Row.kind opcodeRow_1B
@[simp] theorem Instr.operand_sloAbsY (w : Addr) : (Instr.sloAbsY w).operand = .memory (.absoluteY w) :=
  (Instr.operand_of_row (i := (Instr.sloAbsY w)) opcodeRow_1B rfl rfl).trans (congrArg (fun w => Operand.memory (.absoluteY w)) (word16_hi_lo w))
theorem Instr.kind_nopAbsX (op : Byte) (w : Addr) (h : (Instr.nopAbsX op w).wellFormed = true) : (Instr.nopAbsX op w).kind = .nop := by
  simp only [Instr.wellFormed, nopAbsXOpcodes, decide_eq_true_eq, List.mem_cons, List.not_mem_nil, or_false] at h
  rcases h with rfl | rfl | rfl | rfl | rfl | rfl
  · exact congrArg Row.kind opcodeRow_1C
  · exact congrArg Row.kind opcodeRow_3C
  · exact congrArg Row.kind opcodeRow_5C
  · exact congrArg Row.kind opcodeRow_7C
  · exact congrArg Row.kind opcodeRow_DC
  · exact congrArg Row.kind opcodeRow_FC

theorem Instr.operand_nopAbsX (op : Byte) (w : Addr) (h : (Instr.nopAbsX op w).wellFormed = true) : (Instr.nopAbsX op w).operand = .memory (.absoluteX w) := by
  simp only [Instr.wellFormed, nopAbsXOpcodes, decide_eq_true_eq, List.mem_cons, List.not_mem_nil, or_false] at h
  rcases h with rfl | rfl | rfl | rfl | rfl | rfl
  · exact (Instr.operand_of_row (i := Instr.nopAbsX 0x1C w) opcodeRow_1C rfl rfl).trans (congrArg (fun w => Operand.memory (.absoluteX w)) (word16_hi_lo w))
  · exact (Instr.operand_of_row (i := Instr.nopAbsX 0x3C w) opcodeRow_3C rfl rfl).trans (congrArg (fun w => Operand.memory (.absoluteX w)) (word16_hi_lo w))
  · exact (Instr.operand_of_row (i := Instr.nopAbsX 0x5C w) opcodeRow_5C rfl rfl).trans (congrArg (fun w => Operand.memory (.absoluteX w)) (word16_hi_lo w))
  · exact (Instr.operand_of_row (i := Instr.nopAbsX 0x7C w) opcodeRow_7C rfl rfl).trans (congrArg (fun w => Operand.memory (.absoluteX w)) (word16_hi_lo w))
  · exact (Instr.operand_of_row (i := Instr.nopAbsX 0xDC w) opcodeRow_DC rfl rfl).trans (congrArg (fun w => Operand.memory (.absoluteX w)) (word16_hi_lo w))
  · exact (Instr.operand_of_row (i := Instr.nopAbsX 0xFC w) opcodeRow_FC rfl rfl).trans (congrArg (fun w => Operand.memory (.absoluteX w)) (word16_hi_lo w))

@[simp] theorem Instr.kind_oraAbsX (w : Addr) : (Instr.oraAbsX w).kind = .ora := congrArg Row.kind opcodeRow_1D
@[simp] theorem Instr.operand_oraAbsX (w : Addr) : (Instr.oraAbsX w).operand = .memory (.absoluteX w) :=
  (Instr.operand_of_row (i := (Instr.oraAbsX w)) opcodeRow_1D rfl rfl).trans (congrArg (fun w => Operand.memory (.absoluteX w)) (word16_hi_lo w))
@[simp] theorem Instr.kind_aslAbsX (w : Addr) : (Instr.aslAbsX w).kind = .asl := congrArg Row.kind opcodeRow_1E
@[simp] theorem Instr.operand_aslAbsX (w : Addr) : (Instr.aslAbsX w).operand = .memory (.absoluteX w) :=
  (Instr.operand_of_row (i := (Instr.aslAbsX w)) opcodeRow_1E rfl rfl).trans (congrArg (fun w => Operand.memory (.absoluteX w)) (word16_hi_lo w))
@[simp] theorem Instr.kind_sloAbsX (w : Addr) : (Instr.sloAbsX w).kind = .slo := congrArg Row.kind opcodeRow_1F
@[simp] theorem Instr.operand_sloAbsX (w : Addr) : (Instr.sloAbsX w).operand = .memory (.absoluteX w) :=
  (Instr.operand_of_row (i := (Instr.sloAbsX w)) opcodeRow_1F rfl rfl).trans (congrArg (fun w => Operand.memory (.absoluteX w)) (word16_hi_lo w))
@[simp] theorem Instr.kind_jsrAbs (w : Addr) : (Instr.jsrAbs w).kind = .jsr := congrArg Row.kind opcodeRow_20
@[simp] theorem Instr.operand_jsrAbs (w : Addr) : (Instr.jsrAbs w).operand = .memory (.absolute w) :=
  (Instr.operand_of_row (i := (Instr.jsrAbs w)) opcodeRow_20 rfl rfl).trans (congrArg (fun w => Operand.memory (.absolute w)) (word16_hi_lo w))
@[simp] theorem Instr.kind_andIndX (a : Byte) : (Instr.andIndX a).kind = .and := congrArg Row.kind opcodeRow_21
@[simp] theorem Instr.operand_andIndX (a : Byte) : (Instr.andIndX a).operand = .memory (.indexedIndirect a) :=
  Instr.operand_of_row (i := (Instr.andIndX a)) opcodeRow_21 rfl rfl
@[simp] theorem Instr.kind_rlaIndX (a : Byte) : (Instr.rlaIndX a).kind = .rla := congrArg Row.kind opcodeRow_23
@[simp] theorem Instr.operand_rlaIndX (a : Byte) : (Instr.rlaIndX a).operand = .memory (.indexedIndirect a) :=
  Instr.operand_of_row (i := (Instr.rlaIndX a)) opcodeRow_23 rfl rfl
@[simp] theorem Instr.kind_bitZp (a : Byte) : (Instr.bitZp a).kind = .bit := congrArg Row.kind opcodeRow_24
@[simp] theorem Instr.operand_bitZp (a : Byte) : (Instr.bitZp a).operand = .memory (.zeroPage a) :=
  Instr.operand_of_row (i := (Instr.bitZp a)) opcodeRow_24 rfl rfl
@[simp] theorem Instr.kind_andZp (a : Byte) : (Instr.andZp a).kind = .and := congrArg Row.kind opcodeRow_25
@[simp] theorem Instr.operand_andZp (a : Byte) : (Instr.andZp a).operand = .memory (.zeroPage a) :=
  Instr.operand_of_row (i := (Instr.andZp a)) opcodeRow_25 rfl rfl
@[simp] theorem Instr.kind_rolZp (a : Byte) : (Instr.rolZp a).kind = .rol := congrArg Row.kind opcodeRow_26
@[simp] theorem Instr.operand_rolZp (a : Byte) : (Instr.rolZp a).operand = .memory (.zeroPage a) :=
  Instr.operand_of_row (i := (Instr.rolZp a)) opcodeRow_26 rfl rfl
@[simp] theorem Instr.kind_rlaZp (a : Byte) : (Instr.rlaZp a).kind = .rla := congrArg Row.kind opcodeRow_27
@[simp] theorem Instr.operand_rlaZp (a : Byte) : (Instr.rlaZp a).operand = .memory (.zeroPage a) :=
  Instr.operand_of_row (i := (Instr.rlaZp a)) opcodeRow_27 rfl rfl
@[simp] theorem Instr.kind_plp : Instr.plp.kind = .plp := congrArg Row.kind opcodeRow_28
@[simp] theorem Instr.operand_plp : Instr.plp.operand = .implied :=
  Instr.operand_of_row (i := Instr.plp) opcodeRow_28 rfl rfl
@[simp] theorem Instr.kind_andImm (m : Byte) : (Instr.andImm m).kind = .and := congrArg Row.kind opcodeRow_29
@[simp] theorem Instr.operand_andImm (m : Byte) : (Instr.andImm m).operand = .immediate m :=
  Instr.operand_of_row (i := (Instr.andImm m)) opcodeRow_29 rfl rfl
@[simp] theorem Instr.kind_rolAcc : Instr.rolAcc.kind = .rol := congrArg Row.kind opcodeRow_2A
@[simp] theorem Instr.operand_rolAcc : Instr.rolAcc.operand = .accumulator :=
  Instr.operand_of_row (i := Instr.rolAcc) opcodeRow_2A rfl rfl
@[simp] theorem Instr.kind_bitAbs (w : Addr) : (Instr.bitAbs w).kind = .bit := congrArg Row.kind opcodeRow_2C
@[simp] theorem Instr.operand_bitAbs (w : Addr) : (Instr.bitAbs w).operand = .memory (.absolute w) :=
  (Instr.operand_of_row (i := (Instr.bitAbs w)) opcodeRow_2C rfl rfl).trans (congrArg (fun w => Operand.memory (.absolute w)) (word16_hi_lo w))
@[simp] theorem Instr.kind_andAbs (w : Addr) : (Instr.andAbs w).kind = .and := congrArg Row.kind opcodeRow_2D
@[simp] theorem Instr.operand_andAbs (w : Addr) : (Instr.andAbs w).operand = .memory (.absolute w) :=
  (Instr.operand_of_row (i := (Instr.andAbs w)) opcodeRow_2D rfl rfl).trans (congrArg (fun w => Operand.memory (.absolute w)) (word16_hi_lo w))
@[simp] theorem Instr.kind_rolAbs (w : Addr) : (Instr.rolAbs w).kind = .rol := congrArg Row.kind opcodeRow_2E
@[simp] theorem Instr.operand_rolAbs (w : Addr) : (Instr.rolAbs w).operand = .memory (.absolute w) :=
  (Instr.operand_of_row (i := (Instr.rolAbs w)) opcodeRow_2E rfl rfl).trans (congrArg (fun w => Operand.memory (.absolute w)) (word16_hi_lo w))
@[simp] theorem Instr.kind_rlaAbs (w : Addr) : (Instr.rlaAbs w).kind = .rla := congrArg Row.kind opcodeRow_2F
@[simp] theorem Instr.operand_rlaAbs (w : Addr) : (Instr.rlaAbs w).operand = .memory (.absolute w) :=
  (Instr.operand_of_row (i := (Instr.rlaAbs w)) opcodeRow_2F rfl rfl).trans (congrArg (fun w => Operand.memory (.absolute w)) (word16_hi_lo w))
@[simp] theorem Instr.kind_bmi (d : Byte) : (Instr.bmi d).kind = .bmi := congrArg Row.kind opcodeRow_30
@[simp] theorem Instr.operand_bmi (d : Byte) : (Instr.bmi d).operand = .relative d :=
  Instr.operand_of_row (i := (Instr.bmi d)) opcodeRow_30 rfl rfl
@[simp] theorem Instr.kind_andIndY (a : Byte) : (Instr.andIndY a).kind = .and := congrArg Row.kind opcodeRow_31
@[simp] theorem Instr.operand_andIndY (a : Byte) : (Instr.andIndY a).operand = .memory (.indirectIndexed a) :=
  Instr.operand_of_row (i := (Instr.andIndY a)) opcodeRow_31 rfl rfl
@[simp] theorem Instr.kind_rlaIndY (a : Byte) : (Instr.rlaIndY a).kind = .rla := congrArg Row.kind opcodeRow_33
@[simp] theorem Instr.operand_rlaIndY (a : Byte) : (Instr.rlaIndY a).operand = .memory (.indirectIndexed a) :=
  Instr.operand_of_row (i := (Instr.rlaIndY a)) opcodeRow_33 rfl rfl
@[simp] theorem Instr.kind_andZpX (a : Byte) : (Instr.andZpX a).kind = .and := congrArg Row.kind opcodeRow_35
@[simp] theorem Instr.operand_andZpX (a : Byte) : (Instr.andZpX a).operand = .memory (.zeroPageX a) :=
  Instr.operand_of_row (i := (Instr.andZpX a)) opcodeRow_35 rfl rfl
@[simp] theorem Instr.kind_rolZpX (a : Byte) : (Instr.rolZpX a).kind = .rol := congrArg Row.kind opcodeRow_36
@[simp] theorem Instr.operand_rolZpX (a : Byte) : (Instr.rolZpX a).operand = .memory (.zeroPageX a) :=
  Instr.operand_of_row (i := (Instr.rolZpX a)) opcodeRow_36 rfl rfl
@[simp] theorem Instr.kind_rlaZpX (a : Byte) : (Instr.rlaZpX a).kind = .rla := congrArg Row.kind opcodeRow_37
@[simp] theorem Instr.operand_rlaZpX (a : Byte) : (Instr.rlaZpX a).operand = .memory (.zeroPageX a) :=
  Instr.operand_of_row (i := (Instr.rlaZpX a)) opcodeRow_37 rfl rfl
@[simp] theorem Instr.kind_sec : Instr.sec.kind = .sec := congrArg Row.kind opcodeRow_38
@[simp] theorem Instr.operand_sec : Instr.sec.operand = .implied :=
  Instr.operand_of_row (i := Instr.sec) opcodeRow_38 rfl rfl
@[simp] theorem Instr.kind_andAbsY (w : Addr) : (Instr.andAbsY w).kind = .and := congrArg Row.kind opcodeRow_39
@[simp] theorem Instr.operand_andAbsY (w : Addr) : (Instr.andAbsY w).operand = .memory (.absoluteY w) :=
  (Instr.operand_of_row (i := (Instr.andAbsY w)) opcodeRow_39 rfl rfl).trans (congrArg (fun w => Operand.memory (.absoluteY w)) (word16_hi_lo w))
@[simp] theorem Instr.kind_rlaAbsY (w : Addr) : (Instr.rlaAbsY w).kind = .rla := congrArg Row.kind opcodeRow_3B
@[simp] theorem Instr.operand_rlaAbsY (w : Addr) : (Instr.rlaAbsY w).operand = .memory (.absoluteY w) :=
  (Instr.operand_of_row (i := (Instr.rlaAbsY w)) opcodeRow_3B rfl rfl).trans (congrArg (fun w => Operand.memory (.absoluteY w)) (word16_hi_lo w))
@[simp] theorem Instr.kind_andAbsX (w : Addr) : (Instr.andAbsX w).kind = .and := congrArg Row.kind opcodeRow_3D
@[simp] theorem Instr.operand_andAbsX (w : Addr) : (Instr.andAbsX w).operand = .memory (.absoluteX w) :=
  (Instr.operand_of_row (i := (Instr.andAbsX w)) opcodeRow_3D rfl rfl).trans (congrArg (fun w => Operand.memory (.absoluteX w)) (word16_hi_lo w))
@[simp] theorem Instr.kind_rolAbsX (w : Addr) : (Instr.rolAbsX w).kind = .rol := congrArg Row.kind opcodeRow_3E
@[simp] theorem Instr.operand_rolAbsX (w : Addr) : (Instr.rolAbsX w).operand = .memory (.absoluteX w) :=
  (Instr.operand_of_row (i := (Instr.rolAbsX w)) opcodeRow_3E rfl rfl).trans (congrArg (fun w => Operand.memory (.absoluteX w)) (word16_hi_lo w))
@[simp] theorem Instr.kind_rlaAbsX (w : Addr) : (Instr.rlaAbsX w).kind = .rla := congrArg Row.kind opcodeRow_3F
@[simp] theorem Instr.operand_rlaAbsX (w : Addr) : (Instr.rlaAbsX w).operand = .memory (.absoluteX w) :=
  (Instr.operand_of_row (i := (Instr.rlaAbsX w)) opcodeRow_3F rfl rfl).trans (congrArg (fun w => Operand.memory (.absoluteX w)) (word16_hi_lo w))
@[simp] theorem Instr.kind_rti : Instr.rti.kind = .rti := congrArg Row.kind opcodeRow_40
@[simp] theorem Instr.operand_rti : Instr.rti.operand = .implied :=
  Instr.operand_of_row (i := Instr.rti) opcodeRow_40 rfl rfl
@[simp] theorem Instr.kind_eorIndX (a : Byte) : (Instr.eorIndX a).kind = .eor := congrArg Row.kind opcodeRow_41
@[simp] theorem Instr.operand_eorIndX (a : Byte) : (Instr.eorIndX a).operand = .memory (.indexedIndirect a) :=
  Instr.operand_of_row (i := (Instr.eorIndX a)) opcodeRow_41 rfl rfl
@[simp] theorem Instr.kind_sreIndX (a : Byte) : (Instr.sreIndX a).kind = .sre := congrArg Row.kind opcodeRow_43
@[simp] theorem Instr.operand_sreIndX (a : Byte) : (Instr.sreIndX a).operand = .memory (.indexedIndirect a) :=
  Instr.operand_of_row (i := (Instr.sreIndX a)) opcodeRow_43 rfl rfl
@[simp] theorem Instr.kind_eorZp (a : Byte) : (Instr.eorZp a).kind = .eor := congrArg Row.kind opcodeRow_45
@[simp] theorem Instr.operand_eorZp (a : Byte) : (Instr.eorZp a).operand = .memory (.zeroPage a) :=
  Instr.operand_of_row (i := (Instr.eorZp a)) opcodeRow_45 rfl rfl
@[simp] theorem Instr.kind_lsrZp (a : Byte) : (Instr.lsrZp a).kind = .lsr := congrArg Row.kind opcodeRow_46
@[simp] theorem Instr.operand_lsrZp (a : Byte) : (Instr.lsrZp a).operand = .memory (.zeroPage a) :=
  Instr.operand_of_row (i := (Instr.lsrZp a)) opcodeRow_46 rfl rfl
@[simp] theorem Instr.kind_sreZp (a : Byte) : (Instr.sreZp a).kind = .sre := congrArg Row.kind opcodeRow_47
@[simp] theorem Instr.operand_sreZp (a : Byte) : (Instr.sreZp a).operand = .memory (.zeroPage a) :=
  Instr.operand_of_row (i := (Instr.sreZp a)) opcodeRow_47 rfl rfl
@[simp] theorem Instr.kind_pha : Instr.pha.kind = .pha := congrArg Row.kind opcodeRow_48
@[simp] theorem Instr.operand_pha : Instr.pha.operand = .implied :=
  Instr.operand_of_row (i := Instr.pha) opcodeRow_48 rfl rfl
@[simp] theorem Instr.kind_eorImm (m : Byte) : (Instr.eorImm m).kind = .eor := congrArg Row.kind opcodeRow_49
@[simp] theorem Instr.operand_eorImm (m : Byte) : (Instr.eorImm m).operand = .immediate m :=
  Instr.operand_of_row (i := (Instr.eorImm m)) opcodeRow_49 rfl rfl
@[simp] theorem Instr.kind_lsrAcc : Instr.lsrAcc.kind = .lsr := congrArg Row.kind opcodeRow_4A
@[simp] theorem Instr.operand_lsrAcc : Instr.lsrAcc.operand = .accumulator :=
  Instr.operand_of_row (i := Instr.lsrAcc) opcodeRow_4A rfl rfl
@[simp] theorem Instr.kind_alrImm (m : Byte) : (Instr.alrImm m).kind = .alr := congrArg Row.kind opcodeRow_4B
@[simp] theorem Instr.operand_alrImm (m : Byte) : (Instr.alrImm m).operand = .immediate m :=
  Instr.operand_of_row (i := (Instr.alrImm m)) opcodeRow_4B rfl rfl
@[simp] theorem Instr.kind_jmpAbs (w : Addr) : (Instr.jmpAbs w).kind = .jmp := congrArg Row.kind opcodeRow_4C
@[simp] theorem Instr.operand_jmpAbs (w : Addr) : (Instr.jmpAbs w).operand = .memory (.absolute w) :=
  (Instr.operand_of_row (i := (Instr.jmpAbs w)) opcodeRow_4C rfl rfl).trans (congrArg (fun w => Operand.memory (.absolute w)) (word16_hi_lo w))
@[simp] theorem Instr.kind_eorAbs (w : Addr) : (Instr.eorAbs w).kind = .eor := congrArg Row.kind opcodeRow_4D
@[simp] theorem Instr.operand_eorAbs (w : Addr) : (Instr.eorAbs w).operand = .memory (.absolute w) :=
  (Instr.operand_of_row (i := (Instr.eorAbs w)) opcodeRow_4D rfl rfl).trans (congrArg (fun w => Operand.memory (.absolute w)) (word16_hi_lo w))
@[simp] theorem Instr.kind_lsrAbs (w : Addr) : (Instr.lsrAbs w).kind = .lsr := congrArg Row.kind opcodeRow_4E
@[simp] theorem Instr.operand_lsrAbs (w : Addr) : (Instr.lsrAbs w).operand = .memory (.absolute w) :=
  (Instr.operand_of_row (i := (Instr.lsrAbs w)) opcodeRow_4E rfl rfl).trans (congrArg (fun w => Operand.memory (.absolute w)) (word16_hi_lo w))
@[simp] theorem Instr.kind_sreAbs (w : Addr) : (Instr.sreAbs w).kind = .sre := congrArg Row.kind opcodeRow_4F
@[simp] theorem Instr.operand_sreAbs (w : Addr) : (Instr.sreAbs w).operand = .memory (.absolute w) :=
  (Instr.operand_of_row (i := (Instr.sreAbs w)) opcodeRow_4F rfl rfl).trans (congrArg (fun w => Operand.memory (.absolute w)) (word16_hi_lo w))
@[simp] theorem Instr.kind_bvc (d : Byte) : (Instr.bvc d).kind = .bvc := congrArg Row.kind opcodeRow_50
@[simp] theorem Instr.operand_bvc (d : Byte) : (Instr.bvc d).operand = .relative d :=
  Instr.operand_of_row (i := (Instr.bvc d)) opcodeRow_50 rfl rfl
@[simp] theorem Instr.kind_eorIndY (a : Byte) : (Instr.eorIndY a).kind = .eor := congrArg Row.kind opcodeRow_51
@[simp] theorem Instr.operand_eorIndY (a : Byte) : (Instr.eorIndY a).operand = .memory (.indirectIndexed a) :=
  Instr.operand_of_row (i := (Instr.eorIndY a)) opcodeRow_51 rfl rfl
@[simp] theorem Instr.kind_sreIndY (a : Byte) : (Instr.sreIndY a).kind = .sre := congrArg Row.kind opcodeRow_53
@[simp] theorem Instr.operand_sreIndY (a : Byte) : (Instr.sreIndY a).operand = .memory (.indirectIndexed a) :=
  Instr.operand_of_row (i := (Instr.sreIndY a)) opcodeRow_53 rfl rfl
@[simp] theorem Instr.kind_eorZpX (a : Byte) : (Instr.eorZpX a).kind = .eor := congrArg Row.kind opcodeRow_55
@[simp] theorem Instr.operand_eorZpX (a : Byte) : (Instr.eorZpX a).operand = .memory (.zeroPageX a) :=
  Instr.operand_of_row (i := (Instr.eorZpX a)) opcodeRow_55 rfl rfl
@[simp] theorem Instr.kind_lsrZpX (a : Byte) : (Instr.lsrZpX a).kind = .lsr := congrArg Row.kind opcodeRow_56
@[simp] theorem Instr.operand_lsrZpX (a : Byte) : (Instr.lsrZpX a).operand = .memory (.zeroPageX a) :=
  Instr.operand_of_row (i := (Instr.lsrZpX a)) opcodeRow_56 rfl rfl
@[simp] theorem Instr.kind_sreZpX (a : Byte) : (Instr.sreZpX a).kind = .sre := congrArg Row.kind opcodeRow_57
@[simp] theorem Instr.operand_sreZpX (a : Byte) : (Instr.sreZpX a).operand = .memory (.zeroPageX a) :=
  Instr.operand_of_row (i := (Instr.sreZpX a)) opcodeRow_57 rfl rfl
@[simp] theorem Instr.kind_cli : Instr.cli.kind = .cli := congrArg Row.kind opcodeRow_58
@[simp] theorem Instr.operand_cli : Instr.cli.operand = .implied :=
  Instr.operand_of_row (i := Instr.cli) opcodeRow_58 rfl rfl
@[simp] theorem Instr.kind_eorAbsY (w : Addr) : (Instr.eorAbsY w).kind = .eor := congrArg Row.kind opcodeRow_59
@[simp] theorem Instr.operand_eorAbsY (w : Addr) : (Instr.eorAbsY w).operand = .memory (.absoluteY w) :=
  (Instr.operand_of_row (i := (Instr.eorAbsY w)) opcodeRow_59 rfl rfl).trans (congrArg (fun w => Operand.memory (.absoluteY w)) (word16_hi_lo w))
@[simp] theorem Instr.kind_sreAbsY (w : Addr) : (Instr.sreAbsY w).kind = .sre := congrArg Row.kind opcodeRow_5B
@[simp] theorem Instr.operand_sreAbsY (w : Addr) : (Instr.sreAbsY w).operand = .memory (.absoluteY w) :=
  (Instr.operand_of_row (i := (Instr.sreAbsY w)) opcodeRow_5B rfl rfl).trans (congrArg (fun w => Operand.memory (.absoluteY w)) (word16_hi_lo w))
@[simp] theorem Instr.kind_eorAbsX (w : Addr) : (Instr.eorAbsX w).kind = .eor := congrArg Row.kind opcodeRow_5D
@[simp] theorem Instr.operand_eorAbsX (w : Addr) : (Instr.eorAbsX w).operand = .memory (.absoluteX w) :=
  (Instr.operand_of_row (i := (Instr.eorAbsX w)) opcodeRow_5D rfl rfl).trans (congrArg (fun w => Operand.memory (.absoluteX w)) (word16_hi_lo w))
@[simp] theorem Instr.kind_lsrAbsX (w : Addr) : (Instr.lsrAbsX w).kind = .lsr := congrArg Row.kind opcodeRow_5E
@[simp] theorem Instr.operand_lsrAbsX (w : Addr) : (Instr.lsrAbsX w).operand = .memory (.absoluteX w) :=
  (Instr.operand_of_row (i := (Instr.lsrAbsX w)) opcodeRow_5E rfl rfl).trans (congrArg (fun w => Operand.memory (.absoluteX w)) (word16_hi_lo w))
@[simp] theorem Instr.kind_sreAbsX (w : Addr) : (Instr.sreAbsX w).kind = .sre := congrArg Row.kind opcodeRow_5F
@[simp] theorem Instr.operand_sreAbsX (w : Addr) : (Instr.sreAbsX w).operand = .memory (.absoluteX w) :=
  (Instr.operand_of_row (i := (Instr.sreAbsX w)) opcodeRow_5F rfl rfl).trans (congrArg (fun w => Operand.memory (.absoluteX w)) (word16_hi_lo w))
@[simp] theorem Instr.kind_rts : Instr.rts.kind = .rts := congrArg Row.kind opcodeRow_60
@[simp] theorem Instr.operand_rts : Instr.rts.operand = .implied :=
  Instr.operand_of_row (i := Instr.rts) opcodeRow_60 rfl rfl
@[simp] theorem Instr.kind_adcIndX (a : Byte) : (Instr.adcIndX a).kind = .adc := congrArg Row.kind opcodeRow_61
@[simp] theorem Instr.operand_adcIndX (a : Byte) : (Instr.adcIndX a).operand = .memory (.indexedIndirect a) :=
  Instr.operand_of_row (i := (Instr.adcIndX a)) opcodeRow_61 rfl rfl
@[simp] theorem Instr.kind_rraIndX (a : Byte) : (Instr.rraIndX a).kind = .rra := congrArg Row.kind opcodeRow_63
@[simp] theorem Instr.operand_rraIndX (a : Byte) : (Instr.rraIndX a).operand = .memory (.indexedIndirect a) :=
  Instr.operand_of_row (i := (Instr.rraIndX a)) opcodeRow_63 rfl rfl
@[simp] theorem Instr.kind_adcZp (a : Byte) : (Instr.adcZp a).kind = .adc := congrArg Row.kind opcodeRow_65
@[simp] theorem Instr.operand_adcZp (a : Byte) : (Instr.adcZp a).operand = .memory (.zeroPage a) :=
  Instr.operand_of_row (i := (Instr.adcZp a)) opcodeRow_65 rfl rfl
@[simp] theorem Instr.kind_rorZp (a : Byte) : (Instr.rorZp a).kind = .ror := congrArg Row.kind opcodeRow_66
@[simp] theorem Instr.operand_rorZp (a : Byte) : (Instr.rorZp a).operand = .memory (.zeroPage a) :=
  Instr.operand_of_row (i := (Instr.rorZp a)) opcodeRow_66 rfl rfl
@[simp] theorem Instr.kind_rraZp (a : Byte) : (Instr.rraZp a).kind = .rra := congrArg Row.kind opcodeRow_67
@[simp] theorem Instr.operand_rraZp (a : Byte) : (Instr.rraZp a).operand = .memory (.zeroPage a) :=
  Instr.operand_of_row (i := (Instr.rraZp a)) opcodeRow_67 rfl rfl
@[simp] theorem Instr.kind_pla : Instr.pla.kind = .pla := congrArg Row.kind opcodeRow_68
@[simp] theorem Instr.operand_pla : Instr.pla.operand = .implied :=
  Instr.operand_of_row (i := Instr.pla) opcodeRow_68 rfl rfl
@[simp] theorem Instr.kind_adcImm (m : Byte) : (Instr.adcImm m).kind = .adc := congrArg Row.kind opcodeRow_69
@[simp] theorem Instr.operand_adcImm (m : Byte) : (Instr.adcImm m).operand = .immediate m :=
  Instr.operand_of_row (i := (Instr.adcImm m)) opcodeRow_69 rfl rfl
@[simp] theorem Instr.kind_rorAcc : Instr.rorAcc.kind = .ror := congrArg Row.kind opcodeRow_6A
@[simp] theorem Instr.operand_rorAcc : Instr.rorAcc.operand = .accumulator :=
  Instr.operand_of_row (i := Instr.rorAcc) opcodeRow_6A rfl rfl
@[simp] theorem Instr.kind_arrImm (m : Byte) : (Instr.arrImm m).kind = .arr := congrArg Row.kind opcodeRow_6B
@[simp] theorem Instr.operand_arrImm (m : Byte) : (Instr.arrImm m).operand = .immediate m :=
  Instr.operand_of_row (i := (Instr.arrImm m)) opcodeRow_6B rfl rfl
@[simp] theorem Instr.kind_jmpInd (w : Addr) : (Instr.jmpInd w).kind = .jmp := congrArg Row.kind opcodeRow_6C
@[simp] theorem Instr.operand_jmpInd (w : Addr) : (Instr.jmpInd w).operand = .indirect w :=
  (Instr.operand_of_row (i := (Instr.jmpInd w)) opcodeRow_6C rfl rfl).trans (congrArg Operand.indirect (word16_hi_lo w))
@[simp] theorem Instr.kind_adcAbs (w : Addr) : (Instr.adcAbs w).kind = .adc := congrArg Row.kind opcodeRow_6D
@[simp] theorem Instr.operand_adcAbs (w : Addr) : (Instr.adcAbs w).operand = .memory (.absolute w) :=
  (Instr.operand_of_row (i := (Instr.adcAbs w)) opcodeRow_6D rfl rfl).trans (congrArg (fun w => Operand.memory (.absolute w)) (word16_hi_lo w))
@[simp] theorem Instr.kind_rorAbs (w : Addr) : (Instr.rorAbs w).kind = .ror := congrArg Row.kind opcodeRow_6E
@[simp] theorem Instr.operand_rorAbs (w : Addr) : (Instr.rorAbs w).operand = .memory (.absolute w) :=
  (Instr.operand_of_row (i := (Instr.rorAbs w)) opcodeRow_6E rfl rfl).trans (congrArg (fun w => Operand.memory (.absolute w)) (word16_hi_lo w))
@[simp] theorem Instr.kind_rraAbs (w : Addr) : (Instr.rraAbs w).kind = .rra := congrArg Row.kind opcodeRow_6F
@[simp] theorem Instr.operand_rraAbs (w : Addr) : (Instr.rraAbs w).operand = .memory (.absolute w) :=
  (Instr.operand_of_row (i := (Instr.rraAbs w)) opcodeRow_6F rfl rfl).trans (congrArg (fun w => Operand.memory (.absolute w)) (word16_hi_lo w))
@[simp] theorem Instr.kind_bvs (d : Byte) : (Instr.bvs d).kind = .bvs := congrArg Row.kind opcodeRow_70
@[simp] theorem Instr.operand_bvs (d : Byte) : (Instr.bvs d).operand = .relative d :=
  Instr.operand_of_row (i := (Instr.bvs d)) opcodeRow_70 rfl rfl
@[simp] theorem Instr.kind_adcIndY (a : Byte) : (Instr.adcIndY a).kind = .adc := congrArg Row.kind opcodeRow_71
@[simp] theorem Instr.operand_adcIndY (a : Byte) : (Instr.adcIndY a).operand = .memory (.indirectIndexed a) :=
  Instr.operand_of_row (i := (Instr.adcIndY a)) opcodeRow_71 rfl rfl
@[simp] theorem Instr.kind_rraIndY (a : Byte) : (Instr.rraIndY a).kind = .rra := congrArg Row.kind opcodeRow_73
@[simp] theorem Instr.operand_rraIndY (a : Byte) : (Instr.rraIndY a).operand = .memory (.indirectIndexed a) :=
  Instr.operand_of_row (i := (Instr.rraIndY a)) opcodeRow_73 rfl rfl
@[simp] theorem Instr.kind_adcZpX (a : Byte) : (Instr.adcZpX a).kind = .adc := congrArg Row.kind opcodeRow_75
@[simp] theorem Instr.operand_adcZpX (a : Byte) : (Instr.adcZpX a).operand = .memory (.zeroPageX a) :=
  Instr.operand_of_row (i := (Instr.adcZpX a)) opcodeRow_75 rfl rfl
@[simp] theorem Instr.kind_rorZpX (a : Byte) : (Instr.rorZpX a).kind = .ror := congrArg Row.kind opcodeRow_76
@[simp] theorem Instr.operand_rorZpX (a : Byte) : (Instr.rorZpX a).operand = .memory (.zeroPageX a) :=
  Instr.operand_of_row (i := (Instr.rorZpX a)) opcodeRow_76 rfl rfl
@[simp] theorem Instr.kind_rraZpX (a : Byte) : (Instr.rraZpX a).kind = .rra := congrArg Row.kind opcodeRow_77
@[simp] theorem Instr.operand_rraZpX (a : Byte) : (Instr.rraZpX a).operand = .memory (.zeroPageX a) :=
  Instr.operand_of_row (i := (Instr.rraZpX a)) opcodeRow_77 rfl rfl
@[simp] theorem Instr.kind_sei : Instr.sei.kind = .sei := congrArg Row.kind opcodeRow_78
@[simp] theorem Instr.operand_sei : Instr.sei.operand = .implied :=
  Instr.operand_of_row (i := Instr.sei) opcodeRow_78 rfl rfl
@[simp] theorem Instr.kind_adcAbsY (w : Addr) : (Instr.adcAbsY w).kind = .adc := congrArg Row.kind opcodeRow_79
@[simp] theorem Instr.operand_adcAbsY (w : Addr) : (Instr.adcAbsY w).operand = .memory (.absoluteY w) :=
  (Instr.operand_of_row (i := (Instr.adcAbsY w)) opcodeRow_79 rfl rfl).trans (congrArg (fun w => Operand.memory (.absoluteY w)) (word16_hi_lo w))
@[simp] theorem Instr.kind_rraAbsY (w : Addr) : (Instr.rraAbsY w).kind = .rra := congrArg Row.kind opcodeRow_7B
@[simp] theorem Instr.operand_rraAbsY (w : Addr) : (Instr.rraAbsY w).operand = .memory (.absoluteY w) :=
  (Instr.operand_of_row (i := (Instr.rraAbsY w)) opcodeRow_7B rfl rfl).trans (congrArg (fun w => Operand.memory (.absoluteY w)) (word16_hi_lo w))
@[simp] theorem Instr.kind_adcAbsX (w : Addr) : (Instr.adcAbsX w).kind = .adc := congrArg Row.kind opcodeRow_7D
@[simp] theorem Instr.operand_adcAbsX (w : Addr) : (Instr.adcAbsX w).operand = .memory (.absoluteX w) :=
  (Instr.operand_of_row (i := (Instr.adcAbsX w)) opcodeRow_7D rfl rfl).trans (congrArg (fun w => Operand.memory (.absoluteX w)) (word16_hi_lo w))
@[simp] theorem Instr.kind_rorAbsX (w : Addr) : (Instr.rorAbsX w).kind = .ror := congrArg Row.kind opcodeRow_7E
@[simp] theorem Instr.operand_rorAbsX (w : Addr) : (Instr.rorAbsX w).operand = .memory (.absoluteX w) :=
  (Instr.operand_of_row (i := (Instr.rorAbsX w)) opcodeRow_7E rfl rfl).trans (congrArg (fun w => Operand.memory (.absoluteX w)) (word16_hi_lo w))
@[simp] theorem Instr.kind_rraAbsX (w : Addr) : (Instr.rraAbsX w).kind = .rra := congrArg Row.kind opcodeRow_7F
@[simp] theorem Instr.operand_rraAbsX (w : Addr) : (Instr.rraAbsX w).operand = .memory (.absoluteX w) :=
  (Instr.operand_of_row (i := (Instr.rraAbsX w)) opcodeRow_7F rfl rfl).trans (congrArg (fun w => Operand.memory (.absoluteX w)) (word16_hi_lo w))
theorem Instr.kind_nopImm (op m : Byte) (h : (Instr.nopImm op m).wellFormed = true) : (Instr.nopImm op m).kind = .nop := by
  simp only [Instr.wellFormed, nopImmOpcodes, decide_eq_true_eq, List.mem_cons, List.not_mem_nil, or_false] at h
  rcases h with rfl | rfl | rfl | rfl | rfl
  · exact congrArg Row.kind opcodeRow_80
  · exact congrArg Row.kind opcodeRow_82
  · exact congrArg Row.kind opcodeRow_89
  · exact congrArg Row.kind opcodeRow_C2
  · exact congrArg Row.kind opcodeRow_E2

theorem Instr.operand_nopImm (op m : Byte) (h : (Instr.nopImm op m).wellFormed = true) : (Instr.nopImm op m).operand = .immediate m := by
  simp only [Instr.wellFormed, nopImmOpcodes, decide_eq_true_eq, List.mem_cons, List.not_mem_nil, or_false] at h
  rcases h with rfl | rfl | rfl | rfl | rfl
  · exact Instr.operand_of_row (i := Instr.nopImm 0x80 m) opcodeRow_80 rfl rfl
  · exact Instr.operand_of_row (i := Instr.nopImm 0x82 m) opcodeRow_82 rfl rfl
  · exact Instr.operand_of_row (i := Instr.nopImm 0x89 m) opcodeRow_89 rfl rfl
  · exact Instr.operand_of_row (i := Instr.nopImm 0xC2 m) opcodeRow_C2 rfl rfl
  · exact Instr.operand_of_row (i := Instr.nopImm 0xE2 m) opcodeRow_E2 rfl rfl

@[simp] theorem Instr.kind_staIndX (a : Byte) : (Instr.staIndX a).kind = .sta := congrArg Row.kind opcodeRow_81
@[simp] theorem Instr.operand_staIndX (a : Byte) : (Instr.staIndX a).operand = .memory (.indexedIndirect a) :=
  Instr.operand_of_row (i := (Instr.staIndX a)) opcodeRow_81 rfl rfl
@[simp] theorem Instr.kind_saxIndX (a : Byte) : (Instr.saxIndX a).kind = .sax := congrArg Row.kind opcodeRow_83
@[simp] theorem Instr.operand_saxIndX (a : Byte) : (Instr.saxIndX a).operand = .memory (.indexedIndirect a) :=
  Instr.operand_of_row (i := (Instr.saxIndX a)) opcodeRow_83 rfl rfl
@[simp] theorem Instr.kind_styZp (a : Byte) : (Instr.styZp a).kind = .sty := congrArg Row.kind opcodeRow_84
@[simp] theorem Instr.operand_styZp (a : Byte) : (Instr.styZp a).operand = .memory (.zeroPage a) :=
  Instr.operand_of_row (i := (Instr.styZp a)) opcodeRow_84 rfl rfl
@[simp] theorem Instr.kind_staZp (a : Byte) : (Instr.staZp a).kind = .sta := congrArg Row.kind opcodeRow_85
@[simp] theorem Instr.operand_staZp (a : Byte) : (Instr.staZp a).operand = .memory (.zeroPage a) :=
  Instr.operand_of_row (i := (Instr.staZp a)) opcodeRow_85 rfl rfl
@[simp] theorem Instr.kind_stxZp (a : Byte) : (Instr.stxZp a).kind = .stx := congrArg Row.kind opcodeRow_86
@[simp] theorem Instr.operand_stxZp (a : Byte) : (Instr.stxZp a).operand = .memory (.zeroPage a) :=
  Instr.operand_of_row (i := (Instr.stxZp a)) opcodeRow_86 rfl rfl
@[simp] theorem Instr.kind_saxZp (a : Byte) : (Instr.saxZp a).kind = .sax := congrArg Row.kind opcodeRow_87
@[simp] theorem Instr.operand_saxZp (a : Byte) : (Instr.saxZp a).operand = .memory (.zeroPage a) :=
  Instr.operand_of_row (i := (Instr.saxZp a)) opcodeRow_87 rfl rfl
@[simp] theorem Instr.kind_dey : Instr.dey.kind = .dey := congrArg Row.kind opcodeRow_88
@[simp] theorem Instr.operand_dey : Instr.dey.operand = .implied :=
  Instr.operand_of_row (i := Instr.dey) opcodeRow_88 rfl rfl
@[simp] theorem Instr.kind_txa : Instr.txa.kind = .txa := congrArg Row.kind opcodeRow_8A
@[simp] theorem Instr.operand_txa : Instr.txa.operand = .implied :=
  Instr.operand_of_row (i := Instr.txa) opcodeRow_8A rfl rfl
@[simp] theorem Instr.kind_xaaImm (m : Byte) : (Instr.xaaImm m).kind = .xaa := congrArg Row.kind opcodeRow_8B
@[simp] theorem Instr.operand_xaaImm (m : Byte) : (Instr.xaaImm m).operand = .immediate m :=
  Instr.operand_of_row (i := (Instr.xaaImm m)) opcodeRow_8B rfl rfl
@[simp] theorem Instr.kind_styAbs (w : Addr) : (Instr.styAbs w).kind = .sty := congrArg Row.kind opcodeRow_8C
@[simp] theorem Instr.operand_styAbs (w : Addr) : (Instr.styAbs w).operand = .memory (.absolute w) :=
  (Instr.operand_of_row (i := (Instr.styAbs w)) opcodeRow_8C rfl rfl).trans (congrArg (fun w => Operand.memory (.absolute w)) (word16_hi_lo w))
@[simp] theorem Instr.kind_staAbs (w : Addr) : (Instr.staAbs w).kind = .sta := congrArg Row.kind opcodeRow_8D
@[simp] theorem Instr.operand_staAbs (w : Addr) : (Instr.staAbs w).operand = .memory (.absolute w) :=
  (Instr.operand_of_row (i := (Instr.staAbs w)) opcodeRow_8D rfl rfl).trans (congrArg (fun w => Operand.memory (.absolute w)) (word16_hi_lo w))
@[simp] theorem Instr.kind_stxAbs (w : Addr) : (Instr.stxAbs w).kind = .stx := congrArg Row.kind opcodeRow_8E
@[simp] theorem Instr.operand_stxAbs (w : Addr) : (Instr.stxAbs w).operand = .memory (.absolute w) :=
  (Instr.operand_of_row (i := (Instr.stxAbs w)) opcodeRow_8E rfl rfl).trans (congrArg (fun w => Operand.memory (.absolute w)) (word16_hi_lo w))
@[simp] theorem Instr.kind_saxAbs (w : Addr) : (Instr.saxAbs w).kind = .sax := congrArg Row.kind opcodeRow_8F
@[simp] theorem Instr.operand_saxAbs (w : Addr) : (Instr.saxAbs w).operand = .memory (.absolute w) :=
  (Instr.operand_of_row (i := (Instr.saxAbs w)) opcodeRow_8F rfl rfl).trans (congrArg (fun w => Operand.memory (.absolute w)) (word16_hi_lo w))
@[simp] theorem Instr.kind_bcc (d : Byte) : (Instr.bcc d).kind = .bcc := congrArg Row.kind opcodeRow_90
@[simp] theorem Instr.operand_bcc (d : Byte) : (Instr.bcc d).operand = .relative d :=
  Instr.operand_of_row (i := (Instr.bcc d)) opcodeRow_90 rfl rfl
@[simp] theorem Instr.kind_staIndY (a : Byte) : (Instr.staIndY a).kind = .sta := congrArg Row.kind opcodeRow_91
@[simp] theorem Instr.operand_staIndY (a : Byte) : (Instr.staIndY a).operand = .memory (.indirectIndexed a) :=
  Instr.operand_of_row (i := (Instr.staIndY a)) opcodeRow_91 rfl rfl
@[simp] theorem Instr.kind_ahxIndY (a : Byte) : (Instr.ahxIndY a).kind = .ahx := congrArg Row.kind opcodeRow_93
@[simp] theorem Instr.operand_ahxIndY (a : Byte) : (Instr.ahxIndY a).operand = .memory (.indirectIndexed a) :=
  Instr.operand_of_row (i := (Instr.ahxIndY a)) opcodeRow_93 rfl rfl
@[simp] theorem Instr.kind_styZpX (a : Byte) : (Instr.styZpX a).kind = .sty := congrArg Row.kind opcodeRow_94
@[simp] theorem Instr.operand_styZpX (a : Byte) : (Instr.styZpX a).operand = .memory (.zeroPageX a) :=
  Instr.operand_of_row (i := (Instr.styZpX a)) opcodeRow_94 rfl rfl
@[simp] theorem Instr.kind_staZpX (a : Byte) : (Instr.staZpX a).kind = .sta := congrArg Row.kind opcodeRow_95
@[simp] theorem Instr.operand_staZpX (a : Byte) : (Instr.staZpX a).operand = .memory (.zeroPageX a) :=
  Instr.operand_of_row (i := (Instr.staZpX a)) opcodeRow_95 rfl rfl
@[simp] theorem Instr.kind_stxZpY (a : Byte) : (Instr.stxZpY a).kind = .stx := congrArg Row.kind opcodeRow_96
@[simp] theorem Instr.operand_stxZpY (a : Byte) : (Instr.stxZpY a).operand = .memory (.zeroPageY a) :=
  Instr.operand_of_row (i := (Instr.stxZpY a)) opcodeRow_96 rfl rfl
@[simp] theorem Instr.kind_saxZpY (a : Byte) : (Instr.saxZpY a).kind = .sax := congrArg Row.kind opcodeRow_97
@[simp] theorem Instr.operand_saxZpY (a : Byte) : (Instr.saxZpY a).operand = .memory (.zeroPageY a) :=
  Instr.operand_of_row (i := (Instr.saxZpY a)) opcodeRow_97 rfl rfl
@[simp] theorem Instr.kind_tya : Instr.tya.kind = .tya := congrArg Row.kind opcodeRow_98
@[simp] theorem Instr.operand_tya : Instr.tya.operand = .implied :=
  Instr.operand_of_row (i := Instr.tya) opcodeRow_98 rfl rfl
@[simp] theorem Instr.kind_staAbsY (w : Addr) : (Instr.staAbsY w).kind = .sta := congrArg Row.kind opcodeRow_99
@[simp] theorem Instr.operand_staAbsY (w : Addr) : (Instr.staAbsY w).operand = .memory (.absoluteY w) :=
  (Instr.operand_of_row (i := (Instr.staAbsY w)) opcodeRow_99 rfl rfl).trans (congrArg (fun w => Operand.memory (.absoluteY w)) (word16_hi_lo w))
@[simp] theorem Instr.kind_txs : Instr.txs.kind = .txs := congrArg Row.kind opcodeRow_9A
@[simp] theorem Instr.operand_txs : Instr.txs.operand = .implied :=
  Instr.operand_of_row (i := Instr.txs) opcodeRow_9A rfl rfl
@[simp] theorem Instr.kind_tasAbsY (w : Addr) : (Instr.tasAbsY w).kind = .tas := congrArg Row.kind opcodeRow_9B
@[simp] theorem Instr.operand_tasAbsY (w : Addr) : (Instr.tasAbsY w).operand = .memory (.absoluteY w) :=
  (Instr.operand_of_row (i := (Instr.tasAbsY w)) opcodeRow_9B rfl rfl).trans (congrArg (fun w => Operand.memory (.absoluteY w)) (word16_hi_lo w))
@[simp] theorem Instr.kind_shyAbsX (w : Addr) : (Instr.shyAbsX w).kind = .shy := congrArg Row.kind opcodeRow_9C
@[simp] theorem Instr.operand_shyAbsX (w : Addr) : (Instr.shyAbsX w).operand = .memory (.absoluteX w) :=
  (Instr.operand_of_row (i := (Instr.shyAbsX w)) opcodeRow_9C rfl rfl).trans (congrArg (fun w => Operand.memory (.absoluteX w)) (word16_hi_lo w))
@[simp] theorem Instr.kind_staAbsX (w : Addr) : (Instr.staAbsX w).kind = .sta := congrArg Row.kind opcodeRow_9D
@[simp] theorem Instr.operand_staAbsX (w : Addr) : (Instr.staAbsX w).operand = .memory (.absoluteX w) :=
  (Instr.operand_of_row (i := (Instr.staAbsX w)) opcodeRow_9D rfl rfl).trans (congrArg (fun w => Operand.memory (.absoluteX w)) (word16_hi_lo w))
@[simp] theorem Instr.kind_shxAbsY (w : Addr) : (Instr.shxAbsY w).kind = .shx := congrArg Row.kind opcodeRow_9E
@[simp] theorem Instr.operand_shxAbsY (w : Addr) : (Instr.shxAbsY w).operand = .memory (.absoluteY w) :=
  (Instr.operand_of_row (i := (Instr.shxAbsY w)) opcodeRow_9E rfl rfl).trans (congrArg (fun w => Operand.memory (.absoluteY w)) (word16_hi_lo w))
@[simp] theorem Instr.kind_ahxAbsY (w : Addr) : (Instr.ahxAbsY w).kind = .ahx := congrArg Row.kind opcodeRow_9F
@[simp] theorem Instr.operand_ahxAbsY (w : Addr) : (Instr.ahxAbsY w).operand = .memory (.absoluteY w) :=
  (Instr.operand_of_row (i := (Instr.ahxAbsY w)) opcodeRow_9F rfl rfl).trans (congrArg (fun w => Operand.memory (.absoluteY w)) (word16_hi_lo w))
@[simp] theorem Instr.kind_ldyImm (m : Byte) : (Instr.ldyImm m).kind = .ldy := congrArg Row.kind opcodeRow_A0
@[simp] theorem Instr.operand_ldyImm (m : Byte) : (Instr.ldyImm m).operand = .immediate m :=
  Instr.operand_of_row (i := (Instr.ldyImm m)) opcodeRow_A0 rfl rfl
@[simp] theorem Instr.kind_ldaIndX (a : Byte) : (Instr.ldaIndX a).kind = .lda := congrArg Row.kind opcodeRow_A1
@[simp] theorem Instr.operand_ldaIndX (a : Byte) : (Instr.ldaIndX a).operand = .memory (.indexedIndirect a) :=
  Instr.operand_of_row (i := (Instr.ldaIndX a)) opcodeRow_A1 rfl rfl
@[simp] theorem Instr.kind_ldxImm (m : Byte) : (Instr.ldxImm m).kind = .ldx := congrArg Row.kind opcodeRow_A2
@[simp] theorem Instr.operand_ldxImm (m : Byte) : (Instr.ldxImm m).operand = .immediate m :=
  Instr.operand_of_row (i := (Instr.ldxImm m)) opcodeRow_A2 rfl rfl
@[simp] theorem Instr.kind_laxIndX (a : Byte) : (Instr.laxIndX a).kind = .lax := congrArg Row.kind opcodeRow_A3
@[simp] theorem Instr.operand_laxIndX (a : Byte) : (Instr.laxIndX a).operand = .memory (.indexedIndirect a) :=
  Instr.operand_of_row (i := (Instr.laxIndX a)) opcodeRow_A3 rfl rfl
@[simp] theorem Instr.kind_ldyZp (a : Byte) : (Instr.ldyZp a).kind = .ldy := congrArg Row.kind opcodeRow_A4
@[simp] theorem Instr.operand_ldyZp (a : Byte) : (Instr.ldyZp a).operand = .memory (.zeroPage a) :=
  Instr.operand_of_row (i := (Instr.ldyZp a)) opcodeRow_A4 rfl rfl
@[simp] theorem Instr.kind_ldaZp (a : Byte) : (Instr.ldaZp a).kind = .lda := congrArg Row.kind opcodeRow_A5
@[simp] theorem Instr.operand_ldaZp (a : Byte) : (Instr.ldaZp a).operand = .memory (.zeroPage a) :=
  Instr.operand_of_row (i := (Instr.ldaZp a)) opcodeRow_A5 rfl rfl
@[simp] theorem Instr.kind_ldxZp (a : Byte) : (Instr.ldxZp a).kind = .ldx := congrArg Row.kind opcodeRow_A6
@[simp] theorem Instr.operand_ldxZp (a : Byte) : (Instr.ldxZp a).operand = .memory (.zeroPage a) :=
  Instr.operand_of_row (i := (Instr.ldxZp a)) opcodeRow_A6 rfl rfl
@[simp] theorem Instr.kind_laxZp (a : Byte) : (Instr.laxZp a).kind = .lax := congrArg Row.kind opcodeRow_A7
@[simp] theorem Instr.operand_laxZp (a : Byte) : (Instr.laxZp a).operand = .memory (.zeroPage a) :=
  Instr.operand_of_row (i := (Instr.laxZp a)) opcodeRow_A7 rfl rfl
@[simp] theorem Instr.kind_tay : Instr.tay.kind = .tay := congrArg Row.kind opcodeRow_A8
@[simp] theorem Instr.operand_tay : Instr.tay.operand = .implied :=
  Instr.operand_of_row (i := Instr.tay) opcodeRow_A8 rfl rfl
@[simp] theorem Instr.kind_ldaImm (m : Byte) : (Instr.ldaImm m).kind = .lda := congrArg Row.kind opcodeRow_A9
@[simp] theorem Instr.operand_ldaImm (m : Byte) : (Instr.ldaImm m).operand = .immediate m :=
  Instr.operand_of_row (i := (Instr.ldaImm m)) opcodeRow_A9 rfl rfl
@[simp] theorem Instr.kind_tax : Instr.tax.kind = .tax := congrArg Row.kind opcodeRow_AA
@[simp] theorem Instr.operand_tax : Instr.tax.operand = .implied :=
  Instr.operand_of_row (i := Instr.tax) opcodeRow_AA rfl rfl
@[simp] theorem Instr.kind_lxaImm (m : Byte) : (Instr.lxaImm m).kind = .lxa := congrArg Row.kind opcodeRow_AB
@[simp] theorem Instr.operand_lxaImm (m : Byte) : (Instr.lxaImm m).operand = .immediate m :=
  Instr.operand_of_row (i := (Instr.lxaImm m)) opcodeRow_AB rfl rfl
@[simp] theorem Instr.kind_ldyAbs (w : Addr) : (Instr.ldyAbs w).kind = .ldy := congrArg Row.kind opcodeRow_AC
@[simp] theorem Instr.operand_ldyAbs (w : Addr) : (Instr.ldyAbs w).operand = .memory (.absolute w) :=
  (Instr.operand_of_row (i := (Instr.ldyAbs w)) opcodeRow_AC rfl rfl).trans (congrArg (fun w => Operand.memory (.absolute w)) (word16_hi_lo w))
@[simp] theorem Instr.kind_ldaAbs (w : Addr) : (Instr.ldaAbs w).kind = .lda := congrArg Row.kind opcodeRow_AD
@[simp] theorem Instr.operand_ldaAbs (w : Addr) : (Instr.ldaAbs w).operand = .memory (.absolute w) :=
  (Instr.operand_of_row (i := (Instr.ldaAbs w)) opcodeRow_AD rfl rfl).trans (congrArg (fun w => Operand.memory (.absolute w)) (word16_hi_lo w))
@[simp] theorem Instr.kind_ldxAbs (w : Addr) : (Instr.ldxAbs w).kind = .ldx := congrArg Row.kind opcodeRow_AE
@[simp] theorem Instr.operand_ldxAbs (w : Addr) : (Instr.ldxAbs w).operand = .memory (.absolute w) :=
  (Instr.operand_of_row (i := (Instr.ldxAbs w)) opcodeRow_AE rfl rfl).trans (congrArg (fun w => Operand.memory (.absolute w)) (word16_hi_lo w))
@[simp] theorem Instr.kind_laxAbs (w : Addr) : (Instr.laxAbs w).kind = .lax := congrArg Row.kind opcodeRow_AF
@[simp] theorem Instr.operand_laxAbs (w : Addr) : (Instr.laxAbs w).operand = .memory (.absolute w) :=
  (Instr.operand_of_row (i := (Instr.laxAbs w)) opcodeRow_AF rfl rfl).trans (congrArg (fun w => Operand.memory (.absolute w)) (word16_hi_lo w))
@[simp] theorem Instr.kind_bcs (d : Byte) : (Instr.bcs d).kind = .bcs := congrArg Row.kind opcodeRow_B0
@[simp] theorem Instr.operand_bcs (d : Byte) : (Instr.bcs d).operand = .relative d :=
  Instr.operand_of_row (i := (Instr.bcs d)) opcodeRow_B0 rfl rfl
@[simp] theorem Instr.kind_ldaIndY (a : Byte) : (Instr.ldaIndY a).kind = .lda := congrArg Row.kind opcodeRow_B1
@[simp] theorem Instr.operand_ldaIndY (a : Byte) : (Instr.ldaIndY a).operand = .memory (.indirectIndexed a) :=
  Instr.operand_of_row (i := (Instr.ldaIndY a)) opcodeRow_B1 rfl rfl
@[simp] theorem Instr.kind_laxIndY (a : Byte) : (Instr.laxIndY a).kind = .lax := congrArg Row.kind opcodeRow_B3
@[simp] theorem Instr.operand_laxIndY (a : Byte) : (Instr.laxIndY a).operand = .memory (.indirectIndexed a) :=
  Instr.operand_of_row (i := (Instr.laxIndY a)) opcodeRow_B3 rfl rfl
@[simp] theorem Instr.kind_ldyZpX (a : Byte) : (Instr.ldyZpX a).kind = .ldy := congrArg Row.kind opcodeRow_B4
@[simp] theorem Instr.operand_ldyZpX (a : Byte) : (Instr.ldyZpX a).operand = .memory (.zeroPageX a) :=
  Instr.operand_of_row (i := (Instr.ldyZpX a)) opcodeRow_B4 rfl rfl
@[simp] theorem Instr.kind_ldaZpX (a : Byte) : (Instr.ldaZpX a).kind = .lda := congrArg Row.kind opcodeRow_B5
@[simp] theorem Instr.operand_ldaZpX (a : Byte) : (Instr.ldaZpX a).operand = .memory (.zeroPageX a) :=
  Instr.operand_of_row (i := (Instr.ldaZpX a)) opcodeRow_B5 rfl rfl
@[simp] theorem Instr.kind_ldxZpY (a : Byte) : (Instr.ldxZpY a).kind = .ldx := congrArg Row.kind opcodeRow_B6
@[simp] theorem Instr.operand_ldxZpY (a : Byte) : (Instr.ldxZpY a).operand = .memory (.zeroPageY a) :=
  Instr.operand_of_row (i := (Instr.ldxZpY a)) opcodeRow_B6 rfl rfl
@[simp] theorem Instr.kind_laxZpY (a : Byte) : (Instr.laxZpY a).kind = .lax := congrArg Row.kind opcodeRow_B7
@[simp] theorem Instr.operand_laxZpY (a : Byte) : (Instr.laxZpY a).operand = .memory (.zeroPageY a) :=
  Instr.operand_of_row (i := (Instr.laxZpY a)) opcodeRow_B7 rfl rfl
@[simp] theorem Instr.kind_clv : Instr.clv.kind = .clv := congrArg Row.kind opcodeRow_B8
@[simp] theorem Instr.operand_clv : Instr.clv.operand = .implied :=
  Instr.operand_of_row (i := Instr.clv) opcodeRow_B8 rfl rfl
@[simp] theorem Instr.kind_ldaAbsY (w : Addr) : (Instr.ldaAbsY w).kind = .lda := congrArg Row.kind opcodeRow_B9
@[simp] theorem Instr.operand_ldaAbsY (w : Addr) : (Instr.ldaAbsY w).operand = .memory (.absoluteY w) :=
  (Instr.operand_of_row (i := (Instr.ldaAbsY w)) opcodeRow_B9 rfl rfl).trans (congrArg (fun w => Operand.memory (.absoluteY w)) (word16_hi_lo w))
@[simp] theorem Instr.kind_tsx : Instr.tsx.kind = .tsx := congrArg Row.kind opcodeRow_BA
@[simp] theorem Instr.operand_tsx : Instr.tsx.operand = .implied :=
  Instr.operand_of_row (i := Instr.tsx) opcodeRow_BA rfl rfl
@[simp] theorem Instr.kind_lasAbsY (w : Addr) : (Instr.lasAbsY w).kind = .las := congrArg Row.kind opcodeRow_BB
@[simp] theorem Instr.operand_lasAbsY (w : Addr) : (Instr.lasAbsY w).operand = .memory (.absoluteY w) :=
  (Instr.operand_of_row (i := (Instr.lasAbsY w)) opcodeRow_BB rfl rfl).trans (congrArg (fun w => Operand.memory (.absoluteY w)) (word16_hi_lo w))
@[simp] theorem Instr.kind_ldyAbsX (w : Addr) : (Instr.ldyAbsX w).kind = .ldy := congrArg Row.kind opcodeRow_BC
@[simp] theorem Instr.operand_ldyAbsX (w : Addr) : (Instr.ldyAbsX w).operand = .memory (.absoluteX w) :=
  (Instr.operand_of_row (i := (Instr.ldyAbsX w)) opcodeRow_BC rfl rfl).trans (congrArg (fun w => Operand.memory (.absoluteX w)) (word16_hi_lo w))
@[simp] theorem Instr.kind_ldaAbsX (w : Addr) : (Instr.ldaAbsX w).kind = .lda := congrArg Row.kind opcodeRow_BD
@[simp] theorem Instr.operand_ldaAbsX (w : Addr) : (Instr.ldaAbsX w).operand = .memory (.absoluteX w) :=
  (Instr.operand_of_row (i := (Instr.ldaAbsX w)) opcodeRow_BD rfl rfl).trans (congrArg (fun w => Operand.memory (.absoluteX w)) (word16_hi_lo w))
@[simp] theorem Instr.kind_ldxAbsY (w : Addr) : (Instr.ldxAbsY w).kind = .ldx := congrArg Row.kind opcodeRow_BE
@[simp] theorem Instr.operand_ldxAbsY (w : Addr) : (Instr.ldxAbsY w).operand = .memory (.absoluteY w) :=
  (Instr.operand_of_row (i := (Instr.ldxAbsY w)) opcodeRow_BE rfl rfl).trans (congrArg (fun w => Operand.memory (.absoluteY w)) (word16_hi_lo w))
@[simp] theorem Instr.kind_laxAbsY (w : Addr) : (Instr.laxAbsY w).kind = .lax := congrArg Row.kind opcodeRow_BF
@[simp] theorem Instr.operand_laxAbsY (w : Addr) : (Instr.laxAbsY w).operand = .memory (.absoluteY w) :=
  (Instr.operand_of_row (i := (Instr.laxAbsY w)) opcodeRow_BF rfl rfl).trans (congrArg (fun w => Operand.memory (.absoluteY w)) (word16_hi_lo w))
@[simp] theorem Instr.kind_cpyImm (m : Byte) : (Instr.cpyImm m).kind = .cpy := congrArg Row.kind opcodeRow_C0
@[simp] theorem Instr.operand_cpyImm (m : Byte) : (Instr.cpyImm m).operand = .immediate m :=
  Instr.operand_of_row (i := (Instr.cpyImm m)) opcodeRow_C0 rfl rfl
@[simp] theorem Instr.kind_cmpIndX (a : Byte) : (Instr.cmpIndX a).kind = .cmp := congrArg Row.kind opcodeRow_C1
@[simp] theorem Instr.operand_cmpIndX (a : Byte) : (Instr.cmpIndX a).operand = .memory (.indexedIndirect a) :=
  Instr.operand_of_row (i := (Instr.cmpIndX a)) opcodeRow_C1 rfl rfl
@[simp] theorem Instr.kind_dcpIndX (a : Byte) : (Instr.dcpIndX a).kind = .dcp := congrArg Row.kind opcodeRow_C3
@[simp] theorem Instr.operand_dcpIndX (a : Byte) : (Instr.dcpIndX a).operand = .memory (.indexedIndirect a) :=
  Instr.operand_of_row (i := (Instr.dcpIndX a)) opcodeRow_C3 rfl rfl
@[simp] theorem Instr.kind_cpyZp (a : Byte) : (Instr.cpyZp a).kind = .cpy := congrArg Row.kind opcodeRow_C4
@[simp] theorem Instr.operand_cpyZp (a : Byte) : (Instr.cpyZp a).operand = .memory (.zeroPage a) :=
  Instr.operand_of_row (i := (Instr.cpyZp a)) opcodeRow_C4 rfl rfl
@[simp] theorem Instr.kind_cmpZp (a : Byte) : (Instr.cmpZp a).kind = .cmp := congrArg Row.kind opcodeRow_C5
@[simp] theorem Instr.operand_cmpZp (a : Byte) : (Instr.cmpZp a).operand = .memory (.zeroPage a) :=
  Instr.operand_of_row (i := (Instr.cmpZp a)) opcodeRow_C5 rfl rfl
@[simp] theorem Instr.kind_decZp (a : Byte) : (Instr.decZp a).kind = .dec := congrArg Row.kind opcodeRow_C6
@[simp] theorem Instr.operand_decZp (a : Byte) : (Instr.decZp a).operand = .memory (.zeroPage a) :=
  Instr.operand_of_row (i := (Instr.decZp a)) opcodeRow_C6 rfl rfl
@[simp] theorem Instr.kind_dcpZp (a : Byte) : (Instr.dcpZp a).kind = .dcp := congrArg Row.kind opcodeRow_C7
@[simp] theorem Instr.operand_dcpZp (a : Byte) : (Instr.dcpZp a).operand = .memory (.zeroPage a) :=
  Instr.operand_of_row (i := (Instr.dcpZp a)) opcodeRow_C7 rfl rfl
@[simp] theorem Instr.kind_iny : Instr.iny.kind = .iny := congrArg Row.kind opcodeRow_C8
@[simp] theorem Instr.operand_iny : Instr.iny.operand = .implied :=
  Instr.operand_of_row (i := Instr.iny) opcodeRow_C8 rfl rfl
@[simp] theorem Instr.kind_cmpImm (m : Byte) : (Instr.cmpImm m).kind = .cmp := congrArg Row.kind opcodeRow_C9
@[simp] theorem Instr.operand_cmpImm (m : Byte) : (Instr.cmpImm m).operand = .immediate m :=
  Instr.operand_of_row (i := (Instr.cmpImm m)) opcodeRow_C9 rfl rfl
@[simp] theorem Instr.kind_dex : Instr.dex.kind = .dex := congrArg Row.kind opcodeRow_CA
@[simp] theorem Instr.operand_dex : Instr.dex.operand = .implied :=
  Instr.operand_of_row (i := Instr.dex) opcodeRow_CA rfl rfl
@[simp] theorem Instr.kind_axsImm (m : Byte) : (Instr.axsImm m).kind = .axs := congrArg Row.kind opcodeRow_CB
@[simp] theorem Instr.operand_axsImm (m : Byte) : (Instr.axsImm m).operand = .immediate m :=
  Instr.operand_of_row (i := (Instr.axsImm m)) opcodeRow_CB rfl rfl
@[simp] theorem Instr.kind_cpyAbs (w : Addr) : (Instr.cpyAbs w).kind = .cpy := congrArg Row.kind opcodeRow_CC
@[simp] theorem Instr.operand_cpyAbs (w : Addr) : (Instr.cpyAbs w).operand = .memory (.absolute w) :=
  (Instr.operand_of_row (i := (Instr.cpyAbs w)) opcodeRow_CC rfl rfl).trans (congrArg (fun w => Operand.memory (.absolute w)) (word16_hi_lo w))
@[simp] theorem Instr.kind_cmpAbs (w : Addr) : (Instr.cmpAbs w).kind = .cmp := congrArg Row.kind opcodeRow_CD
@[simp] theorem Instr.operand_cmpAbs (w : Addr) : (Instr.cmpAbs w).operand = .memory (.absolute w) :=
  (Instr.operand_of_row (i := (Instr.cmpAbs w)) opcodeRow_CD rfl rfl).trans (congrArg (fun w => Operand.memory (.absolute w)) (word16_hi_lo w))
@[simp] theorem Instr.kind_decAbs (w : Addr) : (Instr.decAbs w).kind = .dec := congrArg Row.kind opcodeRow_CE
@[simp] theorem Instr.operand_decAbs (w : Addr) : (Instr.decAbs w).operand = .memory (.absolute w) :=
  (Instr.operand_of_row (i := (Instr.decAbs w)) opcodeRow_CE rfl rfl).trans (congrArg (fun w => Operand.memory (.absolute w)) (word16_hi_lo w))
@[simp] theorem Instr.kind_dcpAbs (w : Addr) : (Instr.dcpAbs w).kind = .dcp := congrArg Row.kind opcodeRow_CF
@[simp] theorem Instr.operand_dcpAbs (w : Addr) : (Instr.dcpAbs w).operand = .memory (.absolute w) :=
  (Instr.operand_of_row (i := (Instr.dcpAbs w)) opcodeRow_CF rfl rfl).trans (congrArg (fun w => Operand.memory (.absolute w)) (word16_hi_lo w))
@[simp] theorem Instr.kind_bne (d : Byte) : (Instr.bne d).kind = .bne := congrArg Row.kind opcodeRow_D0
@[simp] theorem Instr.operand_bne (d : Byte) : (Instr.bne d).operand = .relative d :=
  Instr.operand_of_row (i := (Instr.bne d)) opcodeRow_D0 rfl rfl
@[simp] theorem Instr.kind_cmpIndY (a : Byte) : (Instr.cmpIndY a).kind = .cmp := congrArg Row.kind opcodeRow_D1
@[simp] theorem Instr.operand_cmpIndY (a : Byte) : (Instr.cmpIndY a).operand = .memory (.indirectIndexed a) :=
  Instr.operand_of_row (i := (Instr.cmpIndY a)) opcodeRow_D1 rfl rfl
@[simp] theorem Instr.kind_dcpIndY (a : Byte) : (Instr.dcpIndY a).kind = .dcp := congrArg Row.kind opcodeRow_D3
@[simp] theorem Instr.operand_dcpIndY (a : Byte) : (Instr.dcpIndY a).operand = .memory (.indirectIndexed a) :=
  Instr.operand_of_row (i := (Instr.dcpIndY a)) opcodeRow_D3 rfl rfl
@[simp] theorem Instr.kind_cmpZpX (a : Byte) : (Instr.cmpZpX a).kind = .cmp := congrArg Row.kind opcodeRow_D5
@[simp] theorem Instr.operand_cmpZpX (a : Byte) : (Instr.cmpZpX a).operand = .memory (.zeroPageX a) :=
  Instr.operand_of_row (i := (Instr.cmpZpX a)) opcodeRow_D5 rfl rfl
@[simp] theorem Instr.kind_decZpX (a : Byte) : (Instr.decZpX a).kind = .dec := congrArg Row.kind opcodeRow_D6
@[simp] theorem Instr.operand_decZpX (a : Byte) : (Instr.decZpX a).operand = .memory (.zeroPageX a) :=
  Instr.operand_of_row (i := (Instr.decZpX a)) opcodeRow_D6 rfl rfl
@[simp] theorem Instr.kind_dcpZpX (a : Byte) : (Instr.dcpZpX a).kind = .dcp := congrArg Row.kind opcodeRow_D7
@[simp] theorem Instr.operand_dcpZpX (a : Byte) : (Instr.dcpZpX a).operand = .memory (.zeroPageX a) :=
  Instr.operand_of_row (i := (Instr.dcpZpX a)) opcodeRow_D7 rfl rfl
@[simp] theorem Instr.kind_cld : Instr.cld.kind = .cld := congrArg Row.kind opcodeRow_D8
@[simp] theorem Instr.operand_cld : Instr.cld.operand = .implied :=
  Instr.operand_of_row (i := Instr.cld) opcodeRow_D8 rfl rfl
@[simp] theorem Instr.kind_cmpAbsY (w : Addr) : (Instr.cmpAbsY w).kind = .cmp := congrArg Row.kind opcodeRow_D9
@[simp] theorem Instr.operand_cmpAbsY (w : Addr) : (Instr.cmpAbsY w).operand = .memory (.absoluteY w) :=
  (Instr.operand_of_row (i := (Instr.cmpAbsY w)) opcodeRow_D9 rfl rfl).trans (congrArg (fun w => Operand.memory (.absoluteY w)) (word16_hi_lo w))
@[simp] theorem Instr.kind_dcpAbsY (w : Addr) : (Instr.dcpAbsY w).kind = .dcp := congrArg Row.kind opcodeRow_DB
@[simp] theorem Instr.operand_dcpAbsY (w : Addr) : (Instr.dcpAbsY w).operand = .memory (.absoluteY w) :=
  (Instr.operand_of_row (i := (Instr.dcpAbsY w)) opcodeRow_DB rfl rfl).trans (congrArg (fun w => Operand.memory (.absoluteY w)) (word16_hi_lo w))
@[simp] theorem Instr.kind_cmpAbsX (w : Addr) : (Instr.cmpAbsX w).kind = .cmp := congrArg Row.kind opcodeRow_DD
@[simp] theorem Instr.operand_cmpAbsX (w : Addr) : (Instr.cmpAbsX w).operand = .memory (.absoluteX w) :=
  (Instr.operand_of_row (i := (Instr.cmpAbsX w)) opcodeRow_DD rfl rfl).trans (congrArg (fun w => Operand.memory (.absoluteX w)) (word16_hi_lo w))
@[simp] theorem Instr.kind_decAbsX (w : Addr) : (Instr.decAbsX w).kind = .dec := congrArg Row.kind opcodeRow_DE
@[simp] theorem Instr.operand_decAbsX (w : Addr) : (Instr.decAbsX w).operand = .memory (.absoluteX w) :=
  (Instr.operand_of_row (i := (Instr.decAbsX w)) opcodeRow_DE rfl rfl).trans (congrArg (fun w => Operand.memory (.absoluteX w)) (word16_hi_lo w))
@[simp] theorem Instr.kind_dcpAbsX (w : Addr) : (Instr.dcpAbsX w).kind = .dcp := congrArg Row.kind opcodeRow_DF
@[simp] theorem Instr.operand_dcpAbsX (w : Addr) : (Instr.dcpAbsX w).operand = .memory (.absoluteX w) :=
  (Instr.operand_of_row (i := (Instr.dcpAbsX w)) opcodeRow_DF rfl rfl).trans (congrArg (fun w => Operand.memory (.absoluteX w)) (word16_hi_lo w))
@[simp] theorem Instr.kind_cpxImm (m : Byte) : (Instr.cpxImm m).kind = .cpx := congrArg Row.kind opcodeRow_E0
@[simp] theorem Instr.operand_cpxImm (m : Byte) : (Instr.cpxImm m).operand = .immediate m :=
  Instr.operand_of_row (i := (Instr.cpxImm m)) opcodeRow_E0 rfl rfl
@[simp] theorem Instr.kind_sbcIndX (a : Byte) : (Instr.sbcIndX a).kind = .sbc := congrArg Row.kind opcodeRow_E1
@[simp] theorem Instr.operand_sbcIndX (a : Byte) : (Instr.sbcIndX a).operand = .memory (.indexedIndirect a) :=
  Instr.operand_of_row (i := (Instr.sbcIndX a)) opcodeRow_E1 rfl rfl
@[simp] theorem Instr.kind_isbIndX (a : Byte) : (Instr.isbIndX a).kind = .isb := congrArg Row.kind opcodeRow_E3
@[simp] theorem Instr.operand_isbIndX (a : Byte) : (Instr.isbIndX a).operand = .memory (.indexedIndirect a) :=
  Instr.operand_of_row (i := (Instr.isbIndX a)) opcodeRow_E3 rfl rfl
@[simp] theorem Instr.kind_cpxZp (a : Byte) : (Instr.cpxZp a).kind = .cpx := congrArg Row.kind opcodeRow_E4
@[simp] theorem Instr.operand_cpxZp (a : Byte) : (Instr.cpxZp a).operand = .memory (.zeroPage a) :=
  Instr.operand_of_row (i := (Instr.cpxZp a)) opcodeRow_E4 rfl rfl
@[simp] theorem Instr.kind_sbcZp (a : Byte) : (Instr.sbcZp a).kind = .sbc := congrArg Row.kind opcodeRow_E5
@[simp] theorem Instr.operand_sbcZp (a : Byte) : (Instr.sbcZp a).operand = .memory (.zeroPage a) :=
  Instr.operand_of_row (i := (Instr.sbcZp a)) opcodeRow_E5 rfl rfl
@[simp] theorem Instr.kind_incZp (a : Byte) : (Instr.incZp a).kind = .inc := congrArg Row.kind opcodeRow_E6
@[simp] theorem Instr.operand_incZp (a : Byte) : (Instr.incZp a).operand = .memory (.zeroPage a) :=
  Instr.operand_of_row (i := (Instr.incZp a)) opcodeRow_E6 rfl rfl
@[simp] theorem Instr.kind_isbZp (a : Byte) : (Instr.isbZp a).kind = .isb := congrArg Row.kind opcodeRow_E7
@[simp] theorem Instr.operand_isbZp (a : Byte) : (Instr.isbZp a).operand = .memory (.zeroPage a) :=
  Instr.operand_of_row (i := (Instr.isbZp a)) opcodeRow_E7 rfl rfl
@[simp] theorem Instr.kind_inx : Instr.inx.kind = .inx := congrArg Row.kind opcodeRow_E8
@[simp] theorem Instr.operand_inx : Instr.inx.operand = .implied :=
  Instr.operand_of_row (i := Instr.inx) opcodeRow_E8 rfl rfl
@[simp] theorem Instr.kind_sbcImm (m : Byte) : (Instr.sbcImm m).kind = .sbc := congrArg Row.kind opcodeRow_E9
@[simp] theorem Instr.operand_sbcImm (m : Byte) : (Instr.sbcImm m).operand = .immediate m :=
  Instr.operand_of_row (i := (Instr.sbcImm m)) opcodeRow_E9 rfl rfl
@[simp] theorem Instr.kind_nop : Instr.nop.kind = .nop := congrArg Row.kind opcodeRow_EA
@[simp] theorem Instr.operand_nop : Instr.nop.operand = .implied :=
  Instr.operand_of_row (i := Instr.nop) opcodeRow_EA rfl rfl
@[simp] theorem Instr.kind_sbcImmEB (m : Byte) : (Instr.sbcImmEB m).kind = .sbc := congrArg Row.kind opcodeRow_EB
@[simp] theorem Instr.operand_sbcImmEB (m : Byte) : (Instr.sbcImmEB m).operand = .immediate m :=
  Instr.operand_of_row (i := (Instr.sbcImmEB m)) opcodeRow_EB rfl rfl
@[simp] theorem Instr.kind_cpxAbs (w : Addr) : (Instr.cpxAbs w).kind = .cpx := congrArg Row.kind opcodeRow_EC
@[simp] theorem Instr.operand_cpxAbs (w : Addr) : (Instr.cpxAbs w).operand = .memory (.absolute w) :=
  (Instr.operand_of_row (i := (Instr.cpxAbs w)) opcodeRow_EC rfl rfl).trans (congrArg (fun w => Operand.memory (.absolute w)) (word16_hi_lo w))
@[simp] theorem Instr.kind_sbcAbs (w : Addr) : (Instr.sbcAbs w).kind = .sbc := congrArg Row.kind opcodeRow_ED
@[simp] theorem Instr.operand_sbcAbs (w : Addr) : (Instr.sbcAbs w).operand = .memory (.absolute w) :=
  (Instr.operand_of_row (i := (Instr.sbcAbs w)) opcodeRow_ED rfl rfl).trans (congrArg (fun w => Operand.memory (.absolute w)) (word16_hi_lo w))
@[simp] theorem Instr.kind_incAbs (w : Addr) : (Instr.incAbs w).kind = .inc := congrArg Row.kind opcodeRow_EE
@[simp] theorem Instr.operand_incAbs (w : Addr) : (Instr.incAbs w).operand = .memory (.absolute w) :=
  (Instr.operand_of_row (i := (Instr.incAbs w)) opcodeRow_EE rfl rfl).trans (congrArg (fun w => Operand.memory (.absolute w)) (word16_hi_lo w))
@[simp] theorem Instr.kind_isbAbs (w : Addr) : (Instr.isbAbs w).kind = .isb := congrArg Row.kind opcodeRow_EF
@[simp] theorem Instr.operand_isbAbs (w : Addr) : (Instr.isbAbs w).operand = .memory (.absolute w) :=
  (Instr.operand_of_row (i := (Instr.isbAbs w)) opcodeRow_EF rfl rfl).trans (congrArg (fun w => Operand.memory (.absolute w)) (word16_hi_lo w))
@[simp] theorem Instr.kind_beq (d : Byte) : (Instr.beq d).kind = .beq := congrArg Row.kind opcodeRow_F0
@[simp] theorem Instr.operand_beq (d : Byte) : (Instr.beq d).operand = .relative d :=
  Instr.operand_of_row (i := (Instr.beq d)) opcodeRow_F0 rfl rfl
@[simp] theorem Instr.kind_sbcIndY (a : Byte) : (Instr.sbcIndY a).kind = .sbc := congrArg Row.kind opcodeRow_F1
@[simp] theorem Instr.operand_sbcIndY (a : Byte) : (Instr.sbcIndY a).operand = .memory (.indirectIndexed a) :=
  Instr.operand_of_row (i := (Instr.sbcIndY a)) opcodeRow_F1 rfl rfl
@[simp] theorem Instr.kind_isbIndY (a : Byte) : (Instr.isbIndY a).kind = .isb := congrArg Row.kind opcodeRow_F3
@[simp] theorem Instr.operand_isbIndY (a : Byte) : (Instr.isbIndY a).operand = .memory (.indirectIndexed a) :=
  Instr.operand_of_row (i := (Instr.isbIndY a)) opcodeRow_F3 rfl rfl
@[simp] theorem Instr.kind_sbcZpX (a : Byte) : (Instr.sbcZpX a).kind = .sbc := congrArg Row.kind opcodeRow_F5
@[simp] theorem Instr.operand_sbcZpX (a : Byte) : (Instr.sbcZpX a).operand = .memory (.zeroPageX a) :=
  Instr.operand_of_row (i := (Instr.sbcZpX a)) opcodeRow_F5 rfl rfl
@[simp] theorem Instr.kind_incZpX (a : Byte) : (Instr.incZpX a).kind = .inc := congrArg Row.kind opcodeRow_F6
@[simp] theorem Instr.operand_incZpX (a : Byte) : (Instr.incZpX a).operand = .memory (.zeroPageX a) :=
  Instr.operand_of_row (i := (Instr.incZpX a)) opcodeRow_F6 rfl rfl
@[simp] theorem Instr.kind_isbZpX (a : Byte) : (Instr.isbZpX a).kind = .isb := congrArg Row.kind opcodeRow_F7
@[simp] theorem Instr.operand_isbZpX (a : Byte) : (Instr.isbZpX a).operand = .memory (.zeroPageX a) :=
  Instr.operand_of_row (i := (Instr.isbZpX a)) opcodeRow_F7 rfl rfl
@[simp] theorem Instr.kind_sed : Instr.sed.kind = .sed := congrArg Row.kind opcodeRow_F8
@[simp] theorem Instr.operand_sed : Instr.sed.operand = .implied :=
  Instr.operand_of_row (i := Instr.sed) opcodeRow_F8 rfl rfl
@[simp] theorem Instr.kind_sbcAbsY (w : Addr) : (Instr.sbcAbsY w).kind = .sbc := congrArg Row.kind opcodeRow_F9
@[simp] theorem Instr.operand_sbcAbsY (w : Addr) : (Instr.sbcAbsY w).operand = .memory (.absoluteY w) :=
  (Instr.operand_of_row (i := (Instr.sbcAbsY w)) opcodeRow_F9 rfl rfl).trans (congrArg (fun w => Operand.memory (.absoluteY w)) (word16_hi_lo w))
@[simp] theorem Instr.kind_isbAbsY (w : Addr) : (Instr.isbAbsY w).kind = .isb := congrArg Row.kind opcodeRow_FB
@[simp] theorem Instr.operand_isbAbsY (w : Addr) : (Instr.isbAbsY w).operand = .memory (.absoluteY w) :=
  (Instr.operand_of_row (i := (Instr.isbAbsY w)) opcodeRow_FB rfl rfl).trans (congrArg (fun w => Operand.memory (.absoluteY w)) (word16_hi_lo w))
@[simp] theorem Instr.kind_sbcAbsX (w : Addr) : (Instr.sbcAbsX w).kind = .sbc := congrArg Row.kind opcodeRow_FD
@[simp] theorem Instr.operand_sbcAbsX (w : Addr) : (Instr.sbcAbsX w).operand = .memory (.absoluteX w) :=
  (Instr.operand_of_row (i := (Instr.sbcAbsX w)) opcodeRow_FD rfl rfl).trans (congrArg (fun w => Operand.memory (.absoluteX w)) (word16_hi_lo w))
@[simp] theorem Instr.kind_incAbsX (w : Addr) : (Instr.incAbsX w).kind = .inc := congrArg Row.kind opcodeRow_FE
@[simp] theorem Instr.operand_incAbsX (w : Addr) : (Instr.incAbsX w).operand = .memory (.absoluteX w) :=
  (Instr.operand_of_row (i := (Instr.incAbsX w)) opcodeRow_FE rfl rfl).trans (congrArg (fun w => Operand.memory (.absoluteX w)) (word16_hi_lo w))
@[simp] theorem Instr.kind_isbAbsX (w : Addr) : (Instr.isbAbsX w).kind = .isb := congrArg Row.kind opcodeRow_FF
@[simp] theorem Instr.operand_isbAbsX (w : Addr) : (Instr.isbAbsX w).operand = .memory (.absoluteX w) :=
  (Instr.operand_of_row (i := (Instr.isbAbsX w)) opcodeRow_FF rfl rfl).trans (congrArg (fun w => Operand.memory (.absoluteX w)) (word16_hi_lo w))

end Sys2Proof
end

