-- ==== Sys2Proof/Laws/Exec.lean ====
section
/-! SUPPORT. The shape of every instruction's meaning, by its mnemonic and operand: which of the forms of
Machine/Operands.lean `exec` runs, with which effect. Later proofs cite these and never split `exec`. -/

namespace Sys2Proof.Machine

/-- The effect of a read instruction, by its mnemonic. -/
def readEffect : Mnemonic → Byte → State → State
  | .lda => ldaEffect
  | .ldx => ldxEffect
  | .ldy => ldyEffect
  | .adc => adcEffect
  | .sbc => sbcEffect
  | .and => andEffect
  | .ora => oraEffect
  | .eor => eorEffect
  | .bit => bitEffect
  | .cmp => cmpEffect
  | .cpx => cpxEffect
  | .cpy => cpyEffect
  | .lax => laxEffect
  | .anc => ancEffect
  | .alr => alrEffect
  | .arr => arrEffect
  | .axs => axsEffect
  | _ => fun _ s => s

/-- The value a write instruction stores, by its mnemonic. -/
def writeValue : Mnemonic → State → Byte
  | .stx => fun s => s.x
  | .sty => fun s => s.y
  | .sax => fun s => s.a &&& s.x
  | _ => fun s => s.a

/-- What a read-modify-write instruction makes of its operand, by its mnemonic. -/
def rmwModify : Mnemonic → Byte → Flags → Byte × Flags
  | .asl | .slo => shiftAsl
  | .lsr | .sre => shiftLsr
  | .rol | .rla => shiftRol
  | .ror | .rra => shiftRor
  | .inc | .isb => stepInc
  | _ => stepDec

/-- What a read-modify-write instruction does with the result, by its mnemonic. -/
def rmwEffect : Mnemonic → Byte → State → State
  | .slo => oraEffect
  | .rla => andEffect
  | .sre => eorEffect
  | .rra => adcEffect
  | .dcp => cmpEffect
  | .isb => sbcEffect
  | _ => nzEffect

/-- The condition a branch tests, by its mnemonic. -/
def branchCond : Mnemonic → Flags → Bool
  | .bpl => fun f => !f.n
  | .bmi => fun f => f.n
  | .bvc => fun f => !f.v
  | .bvs => fun f => f.v
  | .bcc => fun f => !f.c
  | .bcs => fun f => f.c
  | .bne => fun f => !f.z
  | _ => fun f => f.z

/-- The mnemonics of the conditional branches. -/
def branchKinds : List Mnemonic := [.bpl, .bmi, .bvc, .bvs, .bcc, .bcs, .bne, .beq]

/-- The effect of an instruction with no operand, by its mnemonic. -/
def impliedEffect : Mnemonic → State → State
  | .tax => taxEffect
  | .tay => tayEffect
  | .txa => txaEffect
  | .tya => tyaEffect
  | .tsx => tsxEffect
  | .txs => txsEffect
  | .inx => inxEffect
  | .iny => inyEffect
  | .dex => dexEffect
  | .dey => deyEffect
  | .rts => rtsEffect
  | .brk => brkEffect
  | .rti => rtiEffect
  | .pha => phaEffect
  | .php => phpEffect
  | .pla => plaEffect
  | .plp => plpEffect
  | .clc => clcEffect
  | .sec => secEffect
  | .cli => cliEffect
  | .sei => seiEffect
  | .cld => cldEffect
  | .sed => sedEffect
  | .clv => clvEffect
  | .jam => jamEffect
  | _ => fun s => s

/-- The effect of an unstable opcode where it runs, by its mnemonic and operand. -/
def unstableEffect : Mnemonic → Operand → State → State × (Nat → Nat)
  | .xaa, .immediate m => xaaEffect m
  | .lxa, .immediate m => lxaEffect m
  | .las, .memory o => lasEffect o
  | .ahx, .memory o => ahxEffect o
  | .shy, .memory o => shyEffect o
  | .shx, .memory o => shxEffect o
  | .tas, .memory o => tasEffect o
  | _, _ => fun s => (s, noStall)

/-- The mnemonics of the eight unstable opcodes. -/
def unstableKinds : List Mnemonic := [.xaa, .lxa, .ahx, .tas, .shy, .shx, .las]

/-- The mnemonics whose instructions have no operand, the implied NOPs among them. -/
def impliedKinds : List Mnemonic :=
  [.tax, .tay, .txa, .tya, .tsx, .txs, .inx, .iny, .dex, .dey, .rts, .brk, .rti, .pha, .php, .pla, .plp, .clc, .sec, .cli,
   .sei, .cld, .sed, .clv, .jam, .nop]

/-- The form an instruction runs, from its mnemonic, opcode byte and operand. -/
def execForm (k : Mnemonic) (op : Byte) (o : Operand) : Option (State → Result) :=
  match k, o with
  | .jmp, .memory (.absolute w) => some (impliedInstr op (jmpEffect w))
  | .jmp, .indirect w => some (impliedInstr op (jmpIndirectEffect w))
  | .jsr, .memory (.absolute w) => some (impliedInstr op (jsrEffect w))
  | k, .implied => if k ∈ impliedKinds then some (impliedInstr op (impliedEffect k)) else none
  | k, .relative d => if k ∈ branchKinds then some (branchInstr op (branchCond k) d) else none
  | k, .accumulator => if k ∈ rmwKinds then some (rmwInstr op .accumulator (rmwModify k) (rmwEffect k)) else none
  | k, .immediate m =>
    if k ∈ readKinds then some (readInstr op (.immediate m) (readEffect k))
    else if k ∈ unstableKinds then some (unstableInstr op (unstableEffect k (.immediate m))) else none
  | k, .memory m =>
    if k ∈ readKinds then some (readInstr op (.memory m) (readEffect k))
    else if k ∈ writeKinds then some (writeInstr op m (writeValue k))
    else if k ∈ rmwKinds then some (rmwInstr op (.memory m) (rmwModify k) (rmwEffect k))
    else if k ∈ unstableKinds then some (unstableInstr op (unstableEffect k (.memory m))) else none
  | _, .indirect _ => none

/-- Every well-formed instruction runs the form its mnemonic and operand name. -/
theorem exec_form {i : Instr} (hw : i.wellFormed = true) (s : State) :
    (execForm i.kind i.opcode i.operand).map (fun f => f s) = some (exec i s) := by
  cases i with
  | brk => rw [Instr.kind_brk, Instr.operand_brk]; rfl
  | oraIndX a => rw [Instr.kind_oraIndX, Instr.operand_oraIndX]; rfl
  | jam op => rw [Instr.kind_jam op hw, Instr.operand_jam op hw]; rfl
  | sloIndX a => rw [Instr.kind_sloIndX, Instr.operand_sloIndX]; rfl
  | nopZp op a => rw [Instr.kind_nopZp op a hw, Instr.operand_nopZp op a hw]; rfl
  | oraZp a => rw [Instr.kind_oraZp, Instr.operand_oraZp]; rfl
  | aslZp a => rw [Instr.kind_aslZp, Instr.operand_aslZp]; rfl
  | sloZp a => rw [Instr.kind_sloZp, Instr.operand_sloZp]; rfl
  | php => rw [Instr.kind_php, Instr.operand_php]; rfl
  | oraImm m => rw [Instr.kind_oraImm, Instr.operand_oraImm]; rfl
  | aslAcc => rw [Instr.kind_aslAcc, Instr.operand_aslAcc]; rfl
  | ancImm op m => rw [Instr.kind_ancImm op m hw, Instr.operand_ancImm op m hw]; rfl
  | nopAbs w => rw [Instr.kind_nopAbs, Instr.operand_nopAbs]; rfl
  | oraAbs w => rw [Instr.kind_oraAbs, Instr.operand_oraAbs]; rfl
  | aslAbs w => rw [Instr.kind_aslAbs, Instr.operand_aslAbs]; rfl
  | sloAbs w => rw [Instr.kind_sloAbs, Instr.operand_sloAbs]; rfl
  | bpl d => rw [Instr.kind_bpl, Instr.operand_bpl]; rfl
  | oraIndY a => rw [Instr.kind_oraIndY, Instr.operand_oraIndY]; rfl
  | sloIndY a => rw [Instr.kind_sloIndY, Instr.operand_sloIndY]; rfl
  | nopZpX op a => rw [Instr.kind_nopZpX op a hw, Instr.operand_nopZpX op a hw]; rfl
  | oraZpX a => rw [Instr.kind_oraZpX, Instr.operand_oraZpX]; rfl
  | aslZpX a => rw [Instr.kind_aslZpX, Instr.operand_aslZpX]; rfl
  | sloZpX a => rw [Instr.kind_sloZpX, Instr.operand_sloZpX]; rfl
  | clc => rw [Instr.kind_clc, Instr.operand_clc]; rfl
  | oraAbsY w => rw [Instr.kind_oraAbsY, Instr.operand_oraAbsY]; rfl
  | nopImp op => rw [Instr.kind_nopImp op hw, Instr.operand_nopImp op hw]; rfl
  | sloAbsY w => rw [Instr.kind_sloAbsY, Instr.operand_sloAbsY]; rfl
  | nopAbsX op w => rw [Instr.kind_nopAbsX op w hw, Instr.operand_nopAbsX op w hw]; rfl
  | oraAbsX w => rw [Instr.kind_oraAbsX, Instr.operand_oraAbsX]; rfl
  | aslAbsX w => rw [Instr.kind_aslAbsX, Instr.operand_aslAbsX]; rfl
  | sloAbsX w => rw [Instr.kind_sloAbsX, Instr.operand_sloAbsX]; rfl
  | jsrAbs w => rw [Instr.kind_jsrAbs, Instr.operand_jsrAbs]; rfl
  | andIndX a => rw [Instr.kind_andIndX, Instr.operand_andIndX]; rfl
  | rlaIndX a => rw [Instr.kind_rlaIndX, Instr.operand_rlaIndX]; rfl
  | bitZp a => rw [Instr.kind_bitZp, Instr.operand_bitZp]; rfl
  | andZp a => rw [Instr.kind_andZp, Instr.operand_andZp]; rfl
  | rolZp a => rw [Instr.kind_rolZp, Instr.operand_rolZp]; rfl
  | rlaZp a => rw [Instr.kind_rlaZp, Instr.operand_rlaZp]; rfl
  | plp => rw [Instr.kind_plp, Instr.operand_plp]; rfl
  | andImm m => rw [Instr.kind_andImm, Instr.operand_andImm]; rfl
  | rolAcc => rw [Instr.kind_rolAcc, Instr.operand_rolAcc]; rfl
  | bitAbs w => rw [Instr.kind_bitAbs, Instr.operand_bitAbs]; rfl
  | andAbs w => rw [Instr.kind_andAbs, Instr.operand_andAbs]; rfl
  | rolAbs w => rw [Instr.kind_rolAbs, Instr.operand_rolAbs]; rfl
  | rlaAbs w => rw [Instr.kind_rlaAbs, Instr.operand_rlaAbs]; rfl
  | bmi d => rw [Instr.kind_bmi, Instr.operand_bmi]; rfl
  | andIndY a => rw [Instr.kind_andIndY, Instr.operand_andIndY]; rfl
  | rlaIndY a => rw [Instr.kind_rlaIndY, Instr.operand_rlaIndY]; rfl
  | andZpX a => rw [Instr.kind_andZpX, Instr.operand_andZpX]; rfl
  | rolZpX a => rw [Instr.kind_rolZpX, Instr.operand_rolZpX]; rfl
  | rlaZpX a => rw [Instr.kind_rlaZpX, Instr.operand_rlaZpX]; rfl
  | sec => rw [Instr.kind_sec, Instr.operand_sec]; rfl
  | andAbsY w => rw [Instr.kind_andAbsY, Instr.operand_andAbsY]; rfl
  | rlaAbsY w => rw [Instr.kind_rlaAbsY, Instr.operand_rlaAbsY]; rfl
  | andAbsX w => rw [Instr.kind_andAbsX, Instr.operand_andAbsX]; rfl
  | rolAbsX w => rw [Instr.kind_rolAbsX, Instr.operand_rolAbsX]; rfl
  | rlaAbsX w => rw [Instr.kind_rlaAbsX, Instr.operand_rlaAbsX]; rfl
  | rti => rw [Instr.kind_rti, Instr.operand_rti]; rfl
  | eorIndX a => rw [Instr.kind_eorIndX, Instr.operand_eorIndX]; rfl
  | sreIndX a => rw [Instr.kind_sreIndX, Instr.operand_sreIndX]; rfl
  | eorZp a => rw [Instr.kind_eorZp, Instr.operand_eorZp]; rfl
  | lsrZp a => rw [Instr.kind_lsrZp, Instr.operand_lsrZp]; rfl
  | sreZp a => rw [Instr.kind_sreZp, Instr.operand_sreZp]; rfl
  | pha => rw [Instr.kind_pha, Instr.operand_pha]; rfl
  | eorImm m => rw [Instr.kind_eorImm, Instr.operand_eorImm]; rfl
  | lsrAcc => rw [Instr.kind_lsrAcc, Instr.operand_lsrAcc]; rfl
  | alrImm m => rw [Instr.kind_alrImm, Instr.operand_alrImm]; rfl
  | jmpAbs w => rw [Instr.kind_jmpAbs, Instr.operand_jmpAbs]; rfl
  | eorAbs w => rw [Instr.kind_eorAbs, Instr.operand_eorAbs]; rfl
  | lsrAbs w => rw [Instr.kind_lsrAbs, Instr.operand_lsrAbs]; rfl
  | sreAbs w => rw [Instr.kind_sreAbs, Instr.operand_sreAbs]; rfl
  | bvc d => rw [Instr.kind_bvc, Instr.operand_bvc]; rfl
  | eorIndY a => rw [Instr.kind_eorIndY, Instr.operand_eorIndY]; rfl
  | sreIndY a => rw [Instr.kind_sreIndY, Instr.operand_sreIndY]; rfl
  | eorZpX a => rw [Instr.kind_eorZpX, Instr.operand_eorZpX]; rfl
  | lsrZpX a => rw [Instr.kind_lsrZpX, Instr.operand_lsrZpX]; rfl
  | sreZpX a => rw [Instr.kind_sreZpX, Instr.operand_sreZpX]; rfl
  | cli => rw [Instr.kind_cli, Instr.operand_cli]; rfl
  | eorAbsY w => rw [Instr.kind_eorAbsY, Instr.operand_eorAbsY]; rfl
  | sreAbsY w => rw [Instr.kind_sreAbsY, Instr.operand_sreAbsY]; rfl
  | eorAbsX w => rw [Instr.kind_eorAbsX, Instr.operand_eorAbsX]; rfl
  | lsrAbsX w => rw [Instr.kind_lsrAbsX, Instr.operand_lsrAbsX]; rfl
  | sreAbsX w => rw [Instr.kind_sreAbsX, Instr.operand_sreAbsX]; rfl
  | rts => rw [Instr.kind_rts, Instr.operand_rts]; rfl
  | adcIndX a => rw [Instr.kind_adcIndX, Instr.operand_adcIndX]; rfl
  | rraIndX a => rw [Instr.kind_rraIndX, Instr.operand_rraIndX]; rfl
  | adcZp a => rw [Instr.kind_adcZp, Instr.operand_adcZp]; rfl
  | rorZp a => rw [Instr.kind_rorZp, Instr.operand_rorZp]; rfl
  | rraZp a => rw [Instr.kind_rraZp, Instr.operand_rraZp]; rfl
  | pla => rw [Instr.kind_pla, Instr.operand_pla]; rfl
  | adcImm m => rw [Instr.kind_adcImm, Instr.operand_adcImm]; rfl
  | rorAcc => rw [Instr.kind_rorAcc, Instr.operand_rorAcc]; rfl
  | arrImm m => rw [Instr.kind_arrImm, Instr.operand_arrImm]; rfl
  | jmpInd w => rw [Instr.kind_jmpInd, Instr.operand_jmpInd]; rfl
  | adcAbs w => rw [Instr.kind_adcAbs, Instr.operand_adcAbs]; rfl
  | rorAbs w => rw [Instr.kind_rorAbs, Instr.operand_rorAbs]; rfl
  | rraAbs w => rw [Instr.kind_rraAbs, Instr.operand_rraAbs]; rfl
  | bvs d => rw [Instr.kind_bvs, Instr.operand_bvs]; rfl
  | adcIndY a => rw [Instr.kind_adcIndY, Instr.operand_adcIndY]; rfl
  | rraIndY a => rw [Instr.kind_rraIndY, Instr.operand_rraIndY]; rfl
  | adcZpX a => rw [Instr.kind_adcZpX, Instr.operand_adcZpX]; rfl
  | rorZpX a => rw [Instr.kind_rorZpX, Instr.operand_rorZpX]; rfl
  | rraZpX a => rw [Instr.kind_rraZpX, Instr.operand_rraZpX]; rfl
  | sei => rw [Instr.kind_sei, Instr.operand_sei]; rfl
  | adcAbsY w => rw [Instr.kind_adcAbsY, Instr.operand_adcAbsY]; rfl
  | rraAbsY w => rw [Instr.kind_rraAbsY, Instr.operand_rraAbsY]; rfl
  | adcAbsX w => rw [Instr.kind_adcAbsX, Instr.operand_adcAbsX]; rfl
  | rorAbsX w => rw [Instr.kind_rorAbsX, Instr.operand_rorAbsX]; rfl
  | rraAbsX w => rw [Instr.kind_rraAbsX, Instr.operand_rraAbsX]; rfl
  | nopImm op m => rw [Instr.kind_nopImm op m hw, Instr.operand_nopImm op m hw]; rfl
  | staIndX a => rw [Instr.kind_staIndX, Instr.operand_staIndX]; rfl
  | saxIndX a => rw [Instr.kind_saxIndX, Instr.operand_saxIndX]; rfl
  | styZp a => rw [Instr.kind_styZp, Instr.operand_styZp]; rfl
  | staZp a => rw [Instr.kind_staZp, Instr.operand_staZp]; rfl
  | stxZp a => rw [Instr.kind_stxZp, Instr.operand_stxZp]; rfl
  | saxZp a => rw [Instr.kind_saxZp, Instr.operand_saxZp]; rfl
  | dey => rw [Instr.kind_dey, Instr.operand_dey]; rfl
  | txa => rw [Instr.kind_txa, Instr.operand_txa]; rfl
  | xaaImm m => rw [Instr.kind_xaaImm, Instr.operand_xaaImm]; rfl
  | styAbs w => rw [Instr.kind_styAbs, Instr.operand_styAbs]; rfl
  | staAbs w => rw [Instr.kind_staAbs, Instr.operand_staAbs]; rfl
  | stxAbs w => rw [Instr.kind_stxAbs, Instr.operand_stxAbs]; rfl
  | saxAbs w => rw [Instr.kind_saxAbs, Instr.operand_saxAbs]; rfl
  | bcc d => rw [Instr.kind_bcc, Instr.operand_bcc]; rfl
  | staIndY a => rw [Instr.kind_staIndY, Instr.operand_staIndY]; rfl
  | ahxIndY a => rw [Instr.kind_ahxIndY, Instr.operand_ahxIndY]; rfl
  | styZpX a => rw [Instr.kind_styZpX, Instr.operand_styZpX]; rfl
  | staZpX a => rw [Instr.kind_staZpX, Instr.operand_staZpX]; rfl
  | stxZpY a => rw [Instr.kind_stxZpY, Instr.operand_stxZpY]; rfl
  | saxZpY a => rw [Instr.kind_saxZpY, Instr.operand_saxZpY]; rfl
  | tya => rw [Instr.kind_tya, Instr.operand_tya]; rfl
  | staAbsY w => rw [Instr.kind_staAbsY, Instr.operand_staAbsY]; rfl
  | txs => rw [Instr.kind_txs, Instr.operand_txs]; rfl
  | tasAbsY w => rw [Instr.kind_tasAbsY, Instr.operand_tasAbsY]; rfl
  | shyAbsX w => rw [Instr.kind_shyAbsX, Instr.operand_shyAbsX]; rfl
  | staAbsX w => rw [Instr.kind_staAbsX, Instr.operand_staAbsX]; rfl
  | shxAbsY w => rw [Instr.kind_shxAbsY, Instr.operand_shxAbsY]; rfl
  | ahxAbsY w => rw [Instr.kind_ahxAbsY, Instr.operand_ahxAbsY]; rfl
  | ldyImm m => rw [Instr.kind_ldyImm, Instr.operand_ldyImm]; rfl
  | ldaIndX a => rw [Instr.kind_ldaIndX, Instr.operand_ldaIndX]; rfl
  | ldxImm m => rw [Instr.kind_ldxImm, Instr.operand_ldxImm]; rfl
  | laxIndX a => rw [Instr.kind_laxIndX, Instr.operand_laxIndX]; rfl
  | ldyZp a => rw [Instr.kind_ldyZp, Instr.operand_ldyZp]; rfl
  | ldaZp a => rw [Instr.kind_ldaZp, Instr.operand_ldaZp]; rfl
  | ldxZp a => rw [Instr.kind_ldxZp, Instr.operand_ldxZp]; rfl
  | laxZp a => rw [Instr.kind_laxZp, Instr.operand_laxZp]; rfl
  | tay => rw [Instr.kind_tay, Instr.operand_tay]; rfl
  | ldaImm m => rw [Instr.kind_ldaImm, Instr.operand_ldaImm]; rfl
  | tax => rw [Instr.kind_tax, Instr.operand_tax]; rfl
  | lxaImm m => rw [Instr.kind_lxaImm, Instr.operand_lxaImm]; rfl
  | ldyAbs w => rw [Instr.kind_ldyAbs, Instr.operand_ldyAbs]; rfl
  | ldaAbs w => rw [Instr.kind_ldaAbs, Instr.operand_ldaAbs]; rfl
  | ldxAbs w => rw [Instr.kind_ldxAbs, Instr.operand_ldxAbs]; rfl
  | laxAbs w => rw [Instr.kind_laxAbs, Instr.operand_laxAbs]; rfl
  | bcs d => rw [Instr.kind_bcs, Instr.operand_bcs]; rfl
  | ldaIndY a => rw [Instr.kind_ldaIndY, Instr.operand_ldaIndY]; rfl
  | laxIndY a => rw [Instr.kind_laxIndY, Instr.operand_laxIndY]; rfl
  | ldyZpX a => rw [Instr.kind_ldyZpX, Instr.operand_ldyZpX]; rfl
  | ldaZpX a => rw [Instr.kind_ldaZpX, Instr.operand_ldaZpX]; rfl
  | ldxZpY a => rw [Instr.kind_ldxZpY, Instr.operand_ldxZpY]; rfl
  | laxZpY a => rw [Instr.kind_laxZpY, Instr.operand_laxZpY]; rfl
  | clv => rw [Instr.kind_clv, Instr.operand_clv]; rfl
  | ldaAbsY w => rw [Instr.kind_ldaAbsY, Instr.operand_ldaAbsY]; rfl
  | tsx => rw [Instr.kind_tsx, Instr.operand_tsx]; rfl
  | lasAbsY w => rw [Instr.kind_lasAbsY, Instr.operand_lasAbsY]; rfl
  | ldyAbsX w => rw [Instr.kind_ldyAbsX, Instr.operand_ldyAbsX]; rfl
  | ldaAbsX w => rw [Instr.kind_ldaAbsX, Instr.operand_ldaAbsX]; rfl
  | ldxAbsY w => rw [Instr.kind_ldxAbsY, Instr.operand_ldxAbsY]; rfl
  | laxAbsY w => rw [Instr.kind_laxAbsY, Instr.operand_laxAbsY]; rfl
  | cpyImm m => rw [Instr.kind_cpyImm, Instr.operand_cpyImm]; rfl
  | cmpIndX a => rw [Instr.kind_cmpIndX, Instr.operand_cmpIndX]; rfl
  | dcpIndX a => rw [Instr.kind_dcpIndX, Instr.operand_dcpIndX]; rfl
  | cpyZp a => rw [Instr.kind_cpyZp, Instr.operand_cpyZp]; rfl
  | cmpZp a => rw [Instr.kind_cmpZp, Instr.operand_cmpZp]; rfl
  | decZp a => rw [Instr.kind_decZp, Instr.operand_decZp]; rfl
  | dcpZp a => rw [Instr.kind_dcpZp, Instr.operand_dcpZp]; rfl
  | iny => rw [Instr.kind_iny, Instr.operand_iny]; rfl
  | cmpImm m => rw [Instr.kind_cmpImm, Instr.operand_cmpImm]; rfl
  | dex => rw [Instr.kind_dex, Instr.operand_dex]; rfl
  | axsImm m => rw [Instr.kind_axsImm, Instr.operand_axsImm]; rfl
  | cpyAbs w => rw [Instr.kind_cpyAbs, Instr.operand_cpyAbs]; rfl
  | cmpAbs w => rw [Instr.kind_cmpAbs, Instr.operand_cmpAbs]; rfl
  | decAbs w => rw [Instr.kind_decAbs, Instr.operand_decAbs]; rfl
  | dcpAbs w => rw [Instr.kind_dcpAbs, Instr.operand_dcpAbs]; rfl
  | bne d => rw [Instr.kind_bne, Instr.operand_bne]; rfl
  | cmpIndY a => rw [Instr.kind_cmpIndY, Instr.operand_cmpIndY]; rfl
  | dcpIndY a => rw [Instr.kind_dcpIndY, Instr.operand_dcpIndY]; rfl
  | cmpZpX a => rw [Instr.kind_cmpZpX, Instr.operand_cmpZpX]; rfl
  | decZpX a => rw [Instr.kind_decZpX, Instr.operand_decZpX]; rfl
  | dcpZpX a => rw [Instr.kind_dcpZpX, Instr.operand_dcpZpX]; rfl
  | cld => rw [Instr.kind_cld, Instr.operand_cld]; rfl
  | cmpAbsY w => rw [Instr.kind_cmpAbsY, Instr.operand_cmpAbsY]; rfl
  | dcpAbsY w => rw [Instr.kind_dcpAbsY, Instr.operand_dcpAbsY]; rfl
  | cmpAbsX w => rw [Instr.kind_cmpAbsX, Instr.operand_cmpAbsX]; rfl
  | decAbsX w => rw [Instr.kind_decAbsX, Instr.operand_decAbsX]; rfl
  | dcpAbsX w => rw [Instr.kind_dcpAbsX, Instr.operand_dcpAbsX]; rfl
  | cpxImm m => rw [Instr.kind_cpxImm, Instr.operand_cpxImm]; rfl
  | sbcIndX a => rw [Instr.kind_sbcIndX, Instr.operand_sbcIndX]; rfl
  | isbIndX a => rw [Instr.kind_isbIndX, Instr.operand_isbIndX]; rfl
  | cpxZp a => rw [Instr.kind_cpxZp, Instr.operand_cpxZp]; rfl
  | sbcZp a => rw [Instr.kind_sbcZp, Instr.operand_sbcZp]; rfl
  | incZp a => rw [Instr.kind_incZp, Instr.operand_incZp]; rfl
  | isbZp a => rw [Instr.kind_isbZp, Instr.operand_isbZp]; rfl
  | inx => rw [Instr.kind_inx, Instr.operand_inx]; rfl
  | sbcImm m => rw [Instr.kind_sbcImm, Instr.operand_sbcImm]; rfl
  | nop => rw [Instr.kind_nop, Instr.operand_nop]; rfl
  | sbcImmEB m => rw [Instr.kind_sbcImmEB, Instr.operand_sbcImmEB]; rfl
  | cpxAbs w => rw [Instr.kind_cpxAbs, Instr.operand_cpxAbs]; rfl
  | sbcAbs w => rw [Instr.kind_sbcAbs, Instr.operand_sbcAbs]; rfl
  | incAbs w => rw [Instr.kind_incAbs, Instr.operand_incAbs]; rfl
  | isbAbs w => rw [Instr.kind_isbAbs, Instr.operand_isbAbs]; rfl
  | beq d => rw [Instr.kind_beq, Instr.operand_beq]; rfl
  | sbcIndY a => rw [Instr.kind_sbcIndY, Instr.operand_sbcIndY]; rfl
  | isbIndY a => rw [Instr.kind_isbIndY, Instr.operand_isbIndY]; rfl
  | sbcZpX a => rw [Instr.kind_sbcZpX, Instr.operand_sbcZpX]; rfl
  | incZpX a => rw [Instr.kind_incZpX, Instr.operand_incZpX]; rfl
  | isbZpX a => rw [Instr.kind_isbZpX, Instr.operand_isbZpX]; rfl
  | sed => rw [Instr.kind_sed, Instr.operand_sed]; rfl
  | sbcAbsY w => rw [Instr.kind_sbcAbsY, Instr.operand_sbcAbsY]; rfl
  | isbAbsY w => rw [Instr.kind_isbAbsY, Instr.operand_isbAbsY]; rfl
  | sbcAbsX w => rw [Instr.kind_sbcAbsX, Instr.operand_sbcAbsX]; rfl
  | incAbsX w => rw [Instr.kind_incAbsX, Instr.operand_incAbsX]; rfl
  | isbAbsX w => rw [Instr.kind_isbAbsX, Instr.operand_isbAbsX]; rfl

theorem exec_read {i : Instr} {src : Source} (hw : i.wellFormed = true) (hk : i.kind ∈ readKinds)
    (hs : i.operand.source = some src) (s : State) : exec i s = readInstr i.opcode src (readEffect i.kind) s := by
  have h := exec_form hw s
  revert h hs hk
  cases i.operand <;> intro hk hs h <;> simp only [Operand.source, Option.some.injEq, reduceCtorEq] at hs
  · subst hs; simpa [execForm, hk, eq_comm] using h
  · subst hs
    have hj : i.kind ≠ .jmp := by rintro e; rw [e] at hk; exact absurd hk (by decide)
    have hj' : i.kind ≠ .jsr := by rintro e; rw [e] at hk; exact absurd hk (by decide)
    simpa [execForm, hk, hj, hj', eq_comm] using h

theorem exec_write {i : Instr} {o : MemOperand} (hw : i.wellFormed = true) (hk : i.kind ∈ writeKinds)
    (ho : i.operand = .memory o) (s : State) : exec i s = writeInstr i.opcode o (writeValue i.kind) s := by
  have h := exec_form hw s
  rw [ho] at h
  generalize i.kind = k at hk h ⊢
  simp only [writeKinds, List.mem_cons, List.not_mem_nil, or_false] at hk
  rcases hk with rfl | rfl | rfl | rfl <;> exact (Option.some.inj h).symm

theorem exec_rmw {i : Instr} {t : Target} (hw : i.wellFormed = true) (hk : i.kind ∈ rmwKinds)
    (ht : i.operand.target = some t) (s : State) :
    exec i s = rmwInstr i.opcode t (rmwModify i.kind) (rmwEffect i.kind) s := by
  have h := exec_form hw s
  generalize i.kind = k at hk h ⊢
  generalize i.operand = o at ht h
  simp only [rmwKinds, List.mem_cons, List.not_mem_nil, or_false] at hk
  cases o <;> simp only [Operand.target, Option.some.injEq, reduceCtorEq] at ht <;> subst ht <;>
    rcases hk with rfl | rfl | rfl | rfl | rfl | rfl | rfl | rfl | rfl | rfl | rfl | rfl <;>
    exact (Option.some.inj h).symm

theorem exec_implied {i : Instr} (hw : i.wellFormed = true) (hk : i.kind ∈ impliedKinds) (ho : i.operand = .implied)
    (s : State) : exec i s = impliedInstr i.opcode (impliedEffect i.kind) s := by
  have h := exec_form hw s
  rw [ho] at h
  have hj : i.kind ≠ .jmp := by rintro e; rw [e] at hk; exact absurd hk (by decide)
  have hj' : i.kind ≠ .jsr := by rintro e; rw [e] at hk; exact absurd hk (by decide)
  simpa [execForm, hk, hj, hj', eq_comm] using h

theorem exec_branch {i : Instr} {d : Byte} (hw : i.wellFormed = true) (ho : i.operand = .relative d) (s : State) :
    exec i s = branchInstr i.opcode (branchCond i.kind) d s := by
  have h := exec_form hw s
  rw [ho] at h
  by_cases hk : i.kind ∈ branchKinds
  · have hj : i.kind ≠ .jmp := by rintro e; rw [e] at hk; exact absurd hk (by decide)
    have hj' : i.kind ≠ .jsr := by rintro e; rw [e] at hk; exact absurd hk (by decide)
    simpa [execForm, hk, hj, hj', eq_comm] using h
  · generalize i.kind = k at hk h
    cases k <;> first | (exact absurd (by decide) hk) | simp [execForm, hk] at h

theorem exec_unstable {i : Instr} (hw : i.wellFormed = true) (hk : i.kind ∈ unstableKinds) (s : State) :
    exec i s = unstableInstr i.opcode (unstableEffect i.kind i.operand) s := by
  have h := exec_form hw s
  generalize i.kind = k at hk h ⊢
  simp only [unstableKinds, List.mem_cons, List.not_mem_nil, or_false] at hk
  generalize i.operand = o at h ⊢
  rcases hk with rfl | rfl | rfl | rfl | rfl | rfl | rfl <;> cases o <;>
    first | exact (Option.some.inj h).symm | exact absurd h (by simp [execForm, impliedKinds, branchKinds, rmwKinds])

end Sys2Proof.Machine
end

