-- ==== Sys2Proof/Laws/Memory.lean ====
section
/-! SUPPORT. The laws of one storage: a read after a write, the canonical form kept by every write and built by
`ofList`, and equal contents being equal lists. -/

namespace Sys2Proof.Machine

@[simp] theorem Memory.read_nil {w : Nat} (k : Nat) : Memory.read ([] : Memory w) k = 0 := rfl

theorem Memory.wfFrom_cons {w : Nat} {size low a : Nat} {v : BitVec w} {rest : Memory w} :
    Memory.wfFrom size low ((a, v) :: rest) = true ↔
      low ≤ a ∧ a < size ∧ v ≠ 0 ∧ Memory.wfFrom size (a + 1) rest = true := by
  simp [Memory.wfFrom, and_assoc]

theorem Memory.wfFrom_mono {w : Nat} {size low low' : Nat} {m : Memory w} (h : Memory.wfFrom size low m = true)
    (hl : low' ≤ low) : Memory.wfFrom size low' m = true := by
  cases m with
  | nil => rfl
  | cons c rest =>
    rw [Memory.wfFrom_cons] at h ⊢
    exact ⟨hl.trans h.1, h.2⟩

/-- Below its lowest offset a storage reads as unlisted. -/
theorem Memory.read_below {w : Nat} {size low k : Nat} {m : Memory w} (h : Memory.wfFrom size low m = true)
    (hk : k < low) : m.read k = 0 := by
  induction m generalizing low with
  | nil => rfl
  | cons c rest ih =>
    rw [Memory.wfFrom_cons] at h
    have hne : c.1 ≠ k := by omega
    simp only [Memory.read, hne, if_false]
    exact ih h.2.2.2 (by omega)

theorem Memory.wfFrom_write {w : Nat} {size low k : Nat} {m : Memory w} {v : BitVec w}
    (h : Memory.wfFrom size low m = true) (hl : low ≤ k) (hk : k < size) :
    Memory.wfFrom size low (m.write k v) = true := by
  induction m generalizing low with
  | nil =>
    unfold Memory.write
    split
    · rfl
    · exact Memory.wfFrom_cons.mpr ⟨hl, hk, ‹_›, rfl⟩
  | cons c rest ih =>
    obtain ⟨h1, h2, h3, h4⟩ := Memory.wfFrom_cons.mp h
    unfold Memory.write
    split
    · split
      · exact h
      · exact Memory.wfFrom_cons.mpr ⟨hl, hk, ‹_›, Memory.wfFrom_cons.mpr ⟨by omega, h2, h3, h4⟩⟩
    · split
      · split
        · exact Memory.wfFrom_mono h4 (by omega)
        · exact Memory.wfFrom_cons.mpr ⟨hl, hk, ‹_›, by simpa [‹k = c.1›] using h4⟩
      · exact Memory.wfFrom_cons.mpr ⟨h1, h2, h3, ih h4 (by omega)⟩

/-- Every write inside the storage keeps the canonical form. -/
theorem Memory.wf_write {w : Nat} {size k : Nat} {m : Memory w} {v : BitVec w} (h : m.wf size = true)
    (hk : k < size) : (m.write k v).wf size = true :=
  Memory.wfFrom_write h (Nat.zero_le k) hk

theorem Memory.read_cons {w : Nat} (a : Nat) (b : BitVec w) (rest : Memory w) (k : Nat) :
    Memory.read ((a, b) :: rest) k = if a = k then b else rest.read k := rfl

theorem Memory.read_write_from {w : Nat} {size low : Nat} {m : Memory w} {v : BitVec w} (k j : Nat)
    (h : Memory.wfFrom size low m = true) : (m.write k v).read j = if j = k then v else m.read j := by
  induction m generalizing low with
  | nil =>
    unfold Memory.write
    split_ifs with hv hj hj
    · exact hv.symm
    · rfl
    · simp [Memory.read_cons, hj]
    · simp [Memory.read_cons, Ne.symm hj]
  | cons c rest ih =>
    obtain ⟨h1, h2, h3, h4⟩ := Memory.wfFrom_cons.mp h
    obtain ⟨a, b⟩ := c
    have hb : k ≤ a → Memory.read rest k = 0 := fun _ => Memory.read_below h4 (by omega)
    unfold Memory.write
    split_ifs with hlt hv hj heq hv hj heq hj hj
    · subst hj; rw [Memory.read_cons, if_neg (by omega), hb (by omega)]; exact hv.symm
    · rfl
    · simp [Memory.read_cons, ‹j = k›]
    · rw [Memory.read_cons, if_neg (by omega)]
    · subst ‹j = k›; rw [hb (by omega)]; exact (‹v = Memory.unlisted w›).symm
    · rw [Memory.read_cons, if_neg (by omega)]
    · simp [Memory.read_cons, ‹j = k›]
    · rw [Memory.read_cons, if_neg (by omega), Memory.read_cons, if_neg (by omega)]
    · rw [Memory.read_cons, if_neg (by omega), ih h4, if_pos ‹j = k›]
    · rw [Memory.read_cons, ih h4, if_neg ‹¬j = k›, Memory.read_cons]

/-- A read after a write: the value written at that offset, and what was there everywhere else (rule R82). -/
theorem Memory.read_write {w : Nat} {size : Nat} {m : Memory w} (v : BitVec w) (k j : Nat) (h : m.wf size = true) :
    (m.write k v).read j = if j = k then v else m.read j :=
  Memory.read_write_from k j h

@[simp] theorem Memory.read_write_self {w : Nat} {size : Nat} {m : Memory w} (v : BitVec w) (k : Nat)
    (h : m.wf size = true) : (m.write k v).read k = v := by
  simp [Memory.read_write v k k h]

theorem Memory.read_write_of_ne {w : Nat} {size : Nat} {m : Memory w} (v : BitVec w) {k j : Nat} (hne : j ≠ k)
    (h : m.wf size = true) : (m.write k v).read j = m.read j := by
  simp [Memory.read_write v k j h, hne]

theorem Memory.wfFrom_ofListFrom {w : Nat} {size low k : Nat} {cells : List (BitVec w)} (hl : low ≤ k)
    (hs : k + cells.length ≤ size) : Memory.wfFrom size low (Memory.ofListFrom k cells) = true := by
  induction cells generalizing low k with
  | nil => rfl
  | cons v rest ih =>
    simp only [List.length_cons] at hs
    unfold Memory.ofListFrom
    split
    · exact ih (by omega) (by omega)
    · exact Memory.wfFrom_cons.mpr ⟨hl, by omega, ‹_›, ih (by omega) (by omega)⟩

/-- A storage built from a list is canonical. -/
theorem Memory.wf_ofList {w : Nat} {size : Nat} {cells : List (BitVec w)} (h : cells.length ≤ size) :
    (Memory.ofList cells).wf size = true :=
  Memory.wfFrom_ofListFrom (Nat.le_refl 0) (by omega)

theorem Memory.read_ofListFrom {w : Nat} (cells : List (BitVec w)) (k j : Nat) (h : k ≤ j) :
    (Memory.ofListFrom k cells).read j = cells.getD (j - k) 0 := by
  induction cells generalizing k with
  | nil => simp [Memory.ofListFrom]
  | cons v rest ih =>
    unfold Memory.ofListFrom
    by_cases hj : j = k
    · subst hj
      split
      · rename_i hv
        have below := Memory.read_below
          (Memory.wfFrom_ofListFrom (cells := rest) (size := j + 1 + rest.length) (Nat.le_refl (j + 1)) (Nat.le_refl _))
          (Nat.lt_succ_self j)
        rw [below, Nat.sub_self, List.getD_cons_zero]
        exact hv.symm
      · rw [Memory.read_cons, if_pos rfl, Nat.sub_self, List.getD_cons_zero]
    · have next : j - k = j - (k + 1) + 1 := by omega
      rw [next, List.getD_cons_succ, ← ih (k + 1) (by omega)]
      split
      · rfl
      · rw [Memory.read_cons, if_neg (Ne.symm hj)]

/-- What a storage built from a list holds. -/
theorem Memory.read_ofList {w : Nat} (cells : List (BitVec w)) (j : Nat) :
    (Memory.ofList cells).read j = cells.getD j 0 :=
  Memory.read_ofListFrom cells 0 j (Nat.zero_le j)

theorem Memory.ext_from {w : Nat} {size low : Nat} {m m' : Memory w} (h : Memory.wfFrom size low m = true)
    (h' : Memory.wfFrom size low m' = true) (heq : ∀ k, low ≤ k → m.read k = m'.read k) : m = m' := by
  induction m generalizing low m' with
  | nil =>
    cases m' with
    | nil => rfl
    | cons c rest =>
      obtain ⟨h1, -, h3, -⟩ := Memory.wfFrom_cons.mp h'
      have := heq c.1 h1
      simp [Memory.read] at this
      exact absurd this.symm h3
  | cons c rest ih =>
    obtain ⟨h1, h2, h3, h4⟩ := Memory.wfFrom_cons.mp h
    cases m' with
    | nil =>
      have := heq c.1 h1
      simp [Memory.read] at this
      exact absurd this h3
    | cons c' rest' =>
      obtain ⟨h1', h2', h3', h4'⟩ := Memory.wfFrom_cons.mp h'
      have hc : c.1 = c'.1 := by
        by_contra hne
        rcases Nat.lt_or_gt_of_ne hne with hlt | hlt
        · have hz : Memory.read (c' :: rest') c.1 = 0 :=
            Memory.read_below (low := c'.1) (Memory.wfFrom_cons.mpr ⟨le_refl _, h2', h3', h4'⟩) hlt
          have hr := heq c.1 h1
          rw [hz, Memory.read_cons, if_pos rfl] at hr
          exact h3 hr
        · have hz : Memory.read (c :: rest) c'.1 = 0 :=
            Memory.read_below (low := c.1) (Memory.wfFrom_cons.mpr ⟨le_refl _, h2, h3, h4⟩) hlt
          have hr := heq c'.1 h1'
          rw [hz, Memory.read_cons, if_pos rfl] at hr
          exact h3' hr.symm
      have hv : c.2 = c'.2 := by
        have := heq c.1 h1
        simpa [Memory.read, hc] using this
      have hrest : rest = rest' := by
        refine ih h4 (hc ▸ h4') fun k hk => ?_
        have := heq k (by omega)
        simpa [Memory.read, show c.1 ≠ k by omega, show c'.1 ≠ k by omega] using this
      rw [hrest, Prod.ext hc hv]

/-- Equal contents are equal data: two canonical storages that read alike everywhere are the same list. -/
theorem Memory.ext {w : Nat} {size : Nat} {m m' : Memory w} (h : m.wf size = true) (h' : m'.wf size = true)
    (heq : ∀ k, m.read k = m'.read k) : m = m' :=
  Memory.ext_from h h' fun k _ => heq k

end Sys2Proof.Machine
end

