-- ==== Sys2Proof/Laws/Invariant.lean ====
section
/-! SUPPORT. The parts of the invariant: the mapper's offsets lie inside the storages, and every bus operation and
every picture-unit tick keeps `State.wf`. -/

namespace Sys2Proof.Machine

theorem State.wf_iff {s : State} :
    s.wf = true ↔ s.ram.wf 2048 = true ∧ s.cart.wf = true ∧ s.ppu.wf = true := by
  simp [State.wf, and_assoc]

theorem Ppu.wf_iff {p : Ppu} :
    p.wf = true ↔ p.tick < 89342 ∧ p.oam.wf 256 = true ∧ p.ntRam.wf 2048 = true ∧ p.pal.wf 32 = true ∧
      p.frame.wf 61440 = true ∧ p.sec.length ≤ 8 ∧ p.sprCount ≤ 8 := by
  simp [Ppu.wf, and_assoc]

theorem Cartridge.wf_iff {c : Cartridge} :
    c.wf = true ↔ c.countsOk = true ∧ c.prg.wf (16384 * c.prgPages) = true ∧ c.chr.wf c.chrSize = true ∧
      c.wram.wf 8192 = true ∧ c.shiftCount < 5 := by
  simp [Cartridge.wf, and_assoc]

/-! ### The mapper's offsets -/

theorem Cartridge.prgPages_pos {c : Cartridge} (h : c.countsOk = true) : 0 < c.prgPages := by
  unfold Cartridge.countsOk at h
  split at h <;> simp at h <;> omega

theorem Cartridge.prgBankAt_lt {c : Cartridge} (h : c.countsOk = true) (a : Addr) : c.prgBankAt a < c.prgPages := by
  have hp := Cartridge.prgPages_pos h
  unfold Cartridge.prgBankAt
  simp only []
  split
  · exact Nat.mod_lt _ hp
  · split
    · exact Nat.mod_lt _ hp
    · split
      · exact Nat.mod_lt _ hp
      · exact hp
    · split
      · omega
      · exact Nat.mod_lt _ hp

theorem Cartridge.prgOffset_lt {c : Cartridge} (h : c.countsOk = true) (a : Addr) :
    c.prgOffset a < 16384 * c.prgPages := by
  have h1 := Cartridge.prgBankAt_lt h a
  have h2 : (a.extractLsb' 0 14).toNat < 16384 := (a.extractLsb' 0 14).isLt
  simp only [Cartridge.prgOffset, Cartridge.translateCpu]
  generalize (a.extractLsb' 0 14).toNat = o at *
  generalize c.prgBankAt a = b at *
  omega

theorem Cartridge.chrOffset_lt {c : Cartridge} (h : c.countsOk = true) (a : BitVec 14) : c.chrOffset a < c.chrSize := by
  have h13 : (a.extractLsb' 0 13).toNat < 8192 := (a.extractLsb' 0 13).isLt
  have h12 : (a.extractLsb' 0 12).toNat < 4096 := (a.extractLsb' 0 12).isLt
  unfold Cartridge.countsOk at h
  unfold Cartridge.chrOffset Cartridge.translatePpu Cartridge.chrBankSize Cartridge.chrSize
  split at h <;> rename_i hm <;> simp only [hm]
  · split <;> omega
  · have hk : 0 < c.chrBanks4k := by unfold Cartridge.chrBanks4k; split <;> omega
    have hs : 4096 * c.chrBanks4k = if c.chrPages = 0 then 8192 else 8192 * c.chrPages := by
      unfold Cartridge.chrBanks4k; split <;> omega
    rw [← hs]
    have hb : ∀ n, n % c.chrBanks4k < c.chrBanks4k := fun n => Nat.mod_lt n hk
    generalize (a.extractLsb' 0 12).toNat = o at *
    have key : ∀ bank, bank < c.chrBanks4k → bank * 4096 + o < 4096 * c.chrBanks4k := fun bank hlt => by omega
    refine key _ ?_
    split
    · split <;> exact hb _
    · exact hb _

/-! ### The bus keeps the invariant -/

theorem memRead_wf {s : State} (h : s.wf = true) (a : Addr) : (memRead a s).2.wf = true := by
  rw [State.wf_iff] at h ⊢
  obtain ⟨h1, h2, h3⟩ := h
  refine ⟨by simpa using h1, by simpa using h2, ?_⟩
  rw [Ppu.wf_iff] at h3 ⊢
  simpa using h3

theorem State.countsOk_of_wf {s : State} (h : s.wf = true) : s.cart.countsOk = true :=
  (Cartridge.wf_iff.mp (State.wf_iff.mp h).2.1).1

theorem Cartridge.commit_wf {c : Cartridge} (h : c.wf = true) (a : Addr) (v : BitVec 5) : (c.commit a v).wf = true := by
  unfold Cartridge.commit; split <;> exact h

theorem Cartridge.serialWrite_wf {c : Cartridge} (h : c.wf = true) (a : Addr) (v : Byte) :
    (c.serialWrite a v).wf = true := by
  have hw := Cartridge.wf_iff.mp h
  unfold Cartridge.serialWrite
  split
  · exact Cartridge.wf_iff.mpr ⟨hw.1, hw.2.1, hw.2.2.1, hw.2.2.2.1, by simp⟩
  · simp only []
    split
    · have hz : ({ c with shift := 0, shiftCount := 0 } : Cartridge).wf = true :=
        Cartridge.wf_iff.mpr ⟨hw.1, hw.2.1, hw.2.2.1, hw.2.2.2.1, by simp⟩
      exact Cartridge.commit_wf hz a _
    · exact Cartridge.wf_iff.mpr ⟨hw.1, hw.2.1, hw.2.2.1, hw.2.2.2.1,
        by have := hw.2.2.2.2; show c.shiftCount + 1 < 5; omega⟩

theorem Cartridge.region_wram_lt {c : Cartridge} {a : Addr} {k : Nat} (h : c.region a = .wram k) : k < 8192 := by
  unfold Cartridge.region at h
  split_ifs at h
  cases h; omega

theorem Cartridge.region_prg_lt {c : Cartridge} (hc : c.countsOk = true) {a : Addr} {k : Nat}
    (h : c.region a = .prg k) : k < 16384 * c.prgPages := by
  unfold Cartridge.region at h
  split_ifs at h
  cases h; exact Cartridge.prgOffset_lt hc a

theorem Cartridge.setCpuAt_wf {c : Cartridge} (h : c.wf = true) (a : Addr) (v : Byte) : (c.setCpuAt a v).wf = true := by
  have hw := Cartridge.wf_iff.mp h
  unfold Cartridge.setCpuAt
  split
  · split
    · exact h
    · exact Cartridge.serialWrite_wf h a v
  · rename_i k hk
    exact Cartridge.wf_iff.mpr
      ⟨hw.1, hw.2.1, hw.2.2.1, Memory.wf_write hw.2.2.2.1 (Cartridge.region_wram_lt hk), hw.2.2.2.2⟩
  · exact h

theorem Cartridge.setPpuAt_wf {c : Cartridge} (h : c.wf = true) (a : BitVec 14) (v : Byte) :
    (c.setPpuAt a v).wf = true := by
  have hw := Cartridge.wf_iff.mp h
  unfold Cartridge.setPpuAt
  split
  · exact Cartridge.wf_iff.mpr
      ⟨hw.1, hw.2.1, Memory.wf_write hw.2.2.1 (Cartridge.chrOffset_lt hw.1 a), hw.2.2.2.1, hw.2.2.2.2⟩
  · exact h

theorem palIndex_lt (a : BitVec 14) : palIndex a < 32 := by
  unfold palIndex; simp only []; split <;> omega

theorem ppuRegion_nametable_lt {m : Mirroring} {a : BitVec 14} {k : Nat} (h : ppuRegion m a = .nametable k) :
    k < 2048 := by
  unfold ppuRegion at h
  split_ifs at h
  cases h; exact (nametableAddress m a).isLt

theorem ppuRegion_palette_lt {m : Mirroring} {a : BitVec 14} {k : Nat} (h : ppuRegion m a = .palette k) : k < 32 := by
  unfold ppuRegion at h
  split_ifs at h
  cases h; exact palIndex_lt a

theorem State.setPpu_wf {s : State} {p : Ppu} (h : s.wf = true) (hp : p.wf = true) : (s.setPpu p).wf = true :=
  State.wf_iff.mpr ⟨(State.wf_iff.mp h).1, (State.wf_iff.mp h).2.1, hp⟩

theorem ppuWrite_wf {s : State} (h : s.wf = true) (a : BitVec 14) (d : Byte) : (ppuWrite a d s).wf = true := by
  obtain ⟨h1, h2, h3⟩ := State.wf_iff.mp h
  have hp := Ppu.wf_iff.mp h3
  unfold ppuWrite
  split
  · exact State.wf_iff.mpr ⟨h1, Cartridge.setPpuAt_wf h2 a d, h3⟩
  · rename_i k hk
    exact State.setPpu_wf h (Ppu.wf_iff.mpr ⟨hp.1, hp.2.1, Memory.wf_write hp.2.2.1 (ppuRegion_nametable_lt hk),
      hp.2.2.2.1, hp.2.2.2.2⟩)
  · rename_i k hk
    exact State.setPpu_wf h (Ppu.wf_iff.mpr ⟨hp.1, hp.2.1, hp.2.2.1,
      Memory.wf_write hp.2.2.2.1 (ppuRegion_palette_lt hk), hp.2.2.2.2⟩)

theorem Ppu.wf_writeOam {p : Ppu} (h : p.wf = true) (k : Byte) (d : Byte) :
    ({ p with oam := p.oam.write k.toNat d } : Ppu).wf = true := by
  have hp := Ppu.wf_iff.mp h
  exact Ppu.wf_iff.mpr ⟨hp.1, Memory.wf_write hp.2.1 k.isLt, hp.2.2⟩

theorem writePpuReg_wf {s : State} (h : s.wf = true) (r : BitVec 3) (d : Byte) : (writePpuReg r d s).wf = true := by
  have hp : s.ppu.wf = true := (State.wf_iff.mp h).2.2
  have hl : (s.setPpu { s.ppu with ioLatch := d }).wf = true := State.setPpu_wf h hp
  unfold writePpuReg
  simp only []
  split
  · exact State.setPpu_wf hl hp
  · exact State.setPpu_wf hl hp
  · exact State.setPpu_wf hl hp
  · exact State.setPpu_wf hl (Ppu.wf_writeOam (p := { s.ppu with ioLatch := d }) hp s.ppu.oamAddr d)
  · refine State.setPpu_wf hl ?_; unfold Ppu.writeScroll; split <;> exact hp
  · refine State.setPpu_wf hl ?_; unfold Ppu.writeAddress; split <;> exact hp
  · have hw := ppuWrite_wf hl (vramAddr s.ppu.v) d
    exact State.setPpu_wf hw (State.wf_iff.mp hw).2.2
  · exact hl

theorem dmaByte_wf {s : State} (h : s.wf = true) (v : Byte) (i : Nat) : (dmaByte v s i).wf = true := by
  have hr := memRead_wf h (word16 v (BitVec.ofNat 8 i))
  exact State.setPpu_wf hr (Ppu.wf_writeOam (State.wf_iff.mp hr).2.2 _ _)

theorem foldl_dmaByte_wf {s : State} (h : s.wf = true) (v : Byte) (l : List Nat) :
    (l.foldl (dmaByte v) s).wf = true := by
  induction l generalizing s with
  | nil => exact h
  | cons i rest ih => exact ih (dmaByte_wf h v i)

theorem memWrite_wf {s : State} (h : s.wf = true) (a : Addr) (v : Byte) : (memWrite a v s).wf = true := by
  obtain ⟨h1, h2, h3⟩ := State.wf_iff.mp h
  unfold memWrite
  split
  · rename_i k hk
    exact State.wf_iff.mpr ⟨Memory.wf_write h1 (cpuRegion_ram_lt hk), h2, h3⟩
  · exact writePpuReg_wf h _ _
  · exact foldl_dmaByte_wf h _ _
  · exact h
  · exact h
  · exact State.wf_iff.mpr ⟨h1, Cartridge.setCpuAt_wf h2 a v, h3⟩

/-! ### A picture-unit tick keeps the invariant -/

/-- The parts of the picture unit that `Ppu.wf` is about, which most sub-steps leave alone. -/
def Ppu.sizes (p : Ppu) : Nat × Memory 8 × Memory 8 × Memory 6 × Memory 6 × Nat × Nat :=
  (p.tick, p.oam, p.ntRam, p.pal, p.frame, p.sec.length, p.sprCount)

theorem Ppu.wf_of_sizes {p q : Ppu} (h : p.wf = true) (e : q.sizes = p.sizes) : q.wf = true := by
  simp only [Ppu.sizes, Prod.mk.injEq] at e
  obtain ⟨e1, e2, e3, e4, e5, e6, e7⟩ := e
  simpa [Ppu.wf, e1, e2, e3, e4, e5, e6, e7] using h

theorem Ppu.flagEvents_sizes (p : Ppu) : p.flagEvents.sizes = p.sizes := by
  unfold Ppu.flagEvents; split_ifs <;> rfl

theorem Ppu.fetchStep_sizes (c : Cartridge) (k : Nat) (p : Ppu) : (p.fetchStep c k).sizes = p.sizes := by
  unfold Ppu.fetchStep; split <;> rfl

theorem Ppu.scrollEvents_sizes (l c : Nat) (p : Ppu) : (p.scrollEvents l c).sizes = p.sizes := by
  unfold Ppu.scrollEvents; split_ifs <;> rfl

theorem Ppu.background_sizes (cart : Cartridge) (l c : Nat) (p : Ppu) : (p.background cart l c).sizes = p.sizes := by
  unfold Ppu.background
  simp only [Ppu.scrollEvents_sizes]
  have e1 : ∀ q : Ppu, q.shift.sizes = q.sizes := fun _ => rfl
  have e2 : ∀ q : Ppu, q.reload.sizes = q.sizes := fun _ => rfl
  split_ifs <;> simp only [Ppu.fetchStep_sizes, e1, e2]

theorem Ppu.sprites_wf {p : Ppu} (h : p.wf = true) (cart : Cartridge) (l c : Nat) : (p.sprites cart l c).wf = true := by
  have hp := Ppu.wf_iff.mp h
  unfold Ppu.sprites
  split
  · unfold Ppu.evaluateSprites
    split
    · exact Ppu.wf_iff.mpr ⟨hp.1, hp.2.1, hp.2.2.1, hp.2.2.2.1, hp.2.2.2.2.1, by simp, hp.2.2.2.2.2.2⟩
    · exact Ppu.wf_iff.mpr ⟨hp.1, hp.2.1, hp.2.2.1, hp.2.2.2.1, hp.2.2.2.2.1, by simp, hp.2.2.2.2.2.2⟩
  · split
    · exact h
    · rename_i k _
      have hf : (p.fetchSlot cart l k).sizes = p.sizes := by unfold Ppu.fetchSlot; split <;> rfl
      have hw := Ppu.wf_of_sizes h hf
      simp only []
      split
      · have hq := Ppu.wf_iff.mp hw
        exact Ppu.wf_iff.mpr ⟨hq.1, hq.2.1, hq.2.2.1, hq.2.2.2.1, hq.2.2.2.2.1, hq.2.2.2.2.2.1, hp.2.2.2.2.2.1⟩
      · exact hw

theorem Ppu.outputPixel_wf {p : Ppu} (h : p.wf = true) {l x : Nat} (hl : l < 240) (hx : x < 256) :
    (p.outputPixel l x).wf = true := by
  have hp := Ppu.wf_iff.mp h
  exact Ppu.wf_iff.mpr ⟨hp.1, hp.2.1, hp.2.2.1, hp.2.2.2.1, Memory.wf_write hp.2.2.2.2.1 (by omega), hp.2.2.2.2.2⟩

theorem Ppu.render_wf {p : Ppu} (h : p.wf = true) (cart : Cartridge) (l c : Nat) : (p.render cart l c).wf = true := by
  unfold Ppu.render
  have h1 : (if p.rendering && renderLine l then (p.background cart l c).sprites cart l c else p).wf = true := by
    split
    · exact Ppu.sprites_wf (Ppu.wf_of_sizes h (Ppu.background_sizes cart l c p)) cart l c
    · exact h
  simp only []
  split
  · exact Ppu.outputPixel_wf h1 (by omega) (by omega)
  · exact h1

theorem Ppu.advance_wf {p : Ppu} (h : p.wf = true) : p.advance.wf = true := by
  have hp := Ppu.wf_iff.mp h
  unfold Ppu.advance
  split_ifs
  · exact Ppu.wf_iff.mpr ⟨by simp, hp.2⟩
  · exact Ppu.wf_iff.mpr ⟨by simp, hp.2⟩
  · exact Ppu.wf_iff.mpr ⟨by simp only []; omega, hp.2⟩

/-- A picture-unit tick keeps the invariant. -/
theorem ppuTick_wf {s : State} (h : s.wf = true) : (ppuTick s).wf = true := by
  obtain ⟨h1, h2, h3⟩ := State.wf_iff.mp h
  refine State.wf_iff.mpr ⟨h1, h2, ?_⟩
  have hf := Ppu.wf_of_sizes h3 (Ppu.flagEvents_sizes s.ppu)
  have hr := Ppu.render_wf hf s.cart s.ppu.scanline s.ppu.cycle
  exact Ppu.advance_wf (Ppu.wf_of_sizes hr rfl)

theorem ppuTicks_wf {s : State} (h : s.wf = true) : (ppuTicks s).wf = true := ppuTick_wf (ppuTick_wf (ppuTick_wf h))

end Sys2Proof.Machine
end

