-- ==== Sys2Proof/Laws/Frame.lean ====
section
/-! SUPPORT. Which memory cells the bus operations change: a read none, a write only the cells `cpuStores` names. -/

namespace Sys2Proof.Machine

/-- A read changes no memory cell. -/
@[simp] theorem memRead_cell (a : Addr) (s : State) (c : Cell) : (memRead a s).2.cell c = s.cell c := by
  cases c <;> simp [State.cell]

@[simp] theorem load_cell (src : Source) (s : State) (c : Cell) : (load src s).state.cell c = s.cell c := by
  cases src with
  | immediate m => rfl
  | memory o => simp [load]

theorem Cartridge.setCpuAt_cell {c : Cartridge} (h : c.wf = true) (a : Addr) (v : Byte) (k : Nat)
    (hk : c.region a ≠ .wram k) :
    (c.setCpuAt a v).prg = c.prg ∧ (c.setCpuAt a v).chr = c.chr ∧ (c.setCpuAt a v).wram.read k = c.wram.read k := by
  have hs : (c.serialWrite a v).prg = c.prg ∧ (c.serialWrite a v).chr = c.chr ∧
      (c.serialWrite a v).wram = c.wram := by
    unfold Cartridge.serialWrite
    split
    · exact ⟨rfl, rfl, rfl⟩
    · simp only []
      split
      · unfold Cartridge.commit; split <;> exact ⟨rfl, rfl, rfl⟩
      · exact ⟨rfl, rfl, rfl⟩
  unfold Cartridge.setCpuAt
  split
  · split
    · exact ⟨rfl, rfl, rfl⟩
    · exact ⟨hs.1, hs.2.1, by rw [hs.2.2]⟩
  · rename_i j hj
    have hne : k ≠ j := fun e => hk (e ▸ hj)
    exact ⟨rfl, rfl, Memory.read_write_of_ne v hne (Cartridge.wf_iff.mp h).2.2.2.1⟩
  · exact ⟨rfl, rfl, rfl⟩

theorem ppuWrite_cell {s : State} (h : s.wf = true) (a : BitVec 14) (d : Byte) (c : Cell)
    (hc : ppuStores s a c = false) : (ppuWrite a d s).cell c = s.cell c := by
  obtain ⟨-, h2, h3⟩ := State.wf_iff.mp h
  have hp := Ppu.wf_iff.mp h3
  unfold ppuStores at hc
  unfold ppuWrite
  split
  · rename_i hr
    simp only [hr, decide_eq_false_iff_not, not_and] at hc
    unfold Cartridge.setPpuAt
    split
    · cases c <;> try rfl
      rename_i k
      have hne : k ≠ s.cart.chrOffset a := fun e => hc ‹_› (e ▸ rfl)
      exact Memory.read_write_of_ne d hne (Cartridge.wf_iff.mp h2).2.2.1
    · rfl
  · rename_i k hr
    simp only [hr, decide_eq_false_iff_not] at hc
    cases c <;> try rfl
    exact Memory.read_write_of_ne d (fun e => hc (e ▸ rfl)) hp.2.2.1
  · rename_i k hr
    simp only [hr, decide_eq_false_iff_not] at hc
    cases c <;> try rfl
    show BitVec.setWidth 8 _ = BitVec.setWidth 8 _
    congr 1
    exact Memory.read_write_of_ne (d.setWidth 6) (fun e => hc (e ▸ rfl)) hp.2.2.2.1

theorem writePpuReg_cell {s : State} (h : s.wf = true) (r : BitVec 3) (d : Byte) (c : Cell)
    (h4 : r = 4 → c ≠ .oam s.ppu.oamAddr.toNat) (h7 : r = 7 → ppuStores s (vramAddr s.ppu.v) c = false) :
    (writePpuReg r d s).cell c = s.cell c := by
  have hp := Ppu.wf_iff.mp (State.wf_iff.mp h).2.2
  have hl : (s.setPpu { s.ppu with ioLatch := d }).wf = true := State.setPpu_wf h (State.wf_iff.mp h).2.2
  unfold writePpuReg
  simp only []
  split
  · cases c <;> rfl
  · cases c <;> rfl
  · cases c <;> rfl
  · rename_i hr
    have hr : r = 4 := BitVec.eq_of_toNat_eq hr
    cases c <;> try rfl
    rename_i k
    have hne : k ≠ s.ppu.oamAddr.toNat := fun e => h4 hr (e ▸ rfl)
    exact Memory.read_write_of_ne d hne hp.2.1
  · unfold Ppu.writeScroll; split <;> cases c <;> rfl
  · unfold Ppu.writeAddress; split <;> cases c <;> rfl
  · rename_i hr
    have hr : r = 7 := BitVec.eq_of_toNat_eq hr
    have hw := ppuWrite_cell hl (vramAddr s.ppu.v) d c (h7 hr)
    have hs : s.cell c = (s.setPpu { s.ppu with ioLatch := d }).cell c := by cases c <;> rfl
    rw [hs, ← hw]
    unfold writeData
    cases c <;> rfl
  · cases c <;> rfl

theorem foldl_dmaByte_cell (v : Byte) (l : List Nat) (s : State) (c : Cell) (hc : c.isOam = false) :
    (l.foldl (dmaByte v) s).cell c = s.cell c := by
  induction l generalizing s with
  | nil => rfl
  | cons i rest ih =>
    rw [List.foldl_cons, ih]
    unfold dmaByte
    cases c <;> first | (simp [Cell.isOam] at hc; done) | simp [State.cell]

/-- A CPU write changes only the cells it stores to. -/
theorem memWrite_cell {s : State} (h : s.wf = true) (a : Addr) (v : Byte) (c : Cell)
    (hc : cpuStores s a c = false) : (memWrite a v s).cell c = s.cell c := by
  obtain ⟨h1, h2, h3⟩ := State.wf_iff.mp h
  unfold cpuStores at hc
  unfold memWrite
  split
  · rename_i k hr
    simp only [hr, decide_eq_false_iff_not] at hc
    cases c <;> try rfl
    exact Memory.read_write_of_ne v (fun e => hc (e ▸ rfl)) h1
  · rename_i r hr
    simp only [hr] at hc
    refine writePpuReg_cell h r v c (fun e => ?_) (fun e => ?_)
    · subst e; simpa using hc
    · subst e; simpa using hc
  · rename_i hr
    simp only [hr] at hc
    exact foldl_dmaByte_cell v _ s c hc
  · rfl
  · rfl
  · rename_i hr
    simp only [hr] at hc
    cases c with
    | wram k =>
      refine (Cartridge.setCpuAt_cell h2 a v k fun e => ?_).2.2
      simp [e] at hc
    | prg k =>
      unfold Cartridge.setCpuAt Cartridge.serialWrite Cartridge.commit
      simp only [State.cell, State.setCart_cart]
      repeat' split
      all_goals rfl
    | chr k =>
      unfold Cartridge.setCpuAt Cartridge.serialWrite Cartridge.commit
      simp only [State.cell, State.setCart_cart]
      repeat' split
      all_goals rfl
    | _ => rfl

end Sys2Proof.Machine
end

