-- ==== Sys2Proof/Laws/Claims.lean ====
section
/-! SUPPORT. The values the statements compute for themselves (Safety.lean) are the ones the machine computes. -/

namespace Sys2Proof.Machine

theorem forall_byte {P : Byte → Prop} (h : ∀ n, n < 256 → P (BitVec.ofNat 8 n)) (b : Byte) : P b := by
  simpa using h b.toNat b.isLt

/-- `HasRows` from two finite checks over the table. -/
theorem HasRows.of_checks {k : Mnemonic} {rows : List (Byte × Mode)}
    (h : (rows.all fun r => decide ((opcodeRow r.1).kind = k) && decide ((opcodeRow r.1).mode = r.2)) = true)
    (h' : ((List.range 256).all fun n =>
      !decide ((opcodeRow (BitVec.ofNat 8 n)).kind = k) || rows.any fun r => decide (r.1 = BitVec.ofNat 8 n)) = true) :
    HasRows k rows := by
  constructor
  · simpa using h
  · refine forall_byte fun n hn hk => ?_
    rw [List.all_eq_true] at h'
    simpa [hk] using h' n (List.mem_range.mpr hn)

theorem atNext_eq (i : Instr) (s : State) : atNext i s = s.advance i.opcode := rfl

theorem costOf_eq (i : Instr) (crossed : Bool) : costOf i crossed = baseCost i.opcode crossed := by
  unfold costOf baseCost Instr.row
  cases (opcodeRow i.opcode).pageCross <;> cases crossed <;> rfl

/-- Two bytes as a word, the high byte first, as a number. -/
theorem word16_eq (h l : Byte) : word16 h l = BitVec.ofNat 16 (256 * h.toNat + l.toNat) := by
  apply BitVec.eq_of_toNat_eq
  have := h.isLt; have := l.isLt
  simp only [word16_toNat, BitVec.toNat_ofNat]
  omega

theorem hiByte_eq (w : Addr) : hiByte w = BitVec.ofNat 8 (w.toNat / 256) := by
  apply BitVec.eq_of_toNat_eq
  have := w.isLt
  simp only [hiByte_toNat, BitVec.toNat_ofNat]
  omega

theorem loByte_eq (w : Addr) : loByte w = BitVec.ofNat 8 w.toNat := by
  apply BitVec.eq_of_toNat_eq
  simp only [loByte_toNat, BitVec.toNat_ofNat]

/-- A signed displacement added to an address (rule R127). -/
theorem relativeTarget_eq (next : Addr) (d : Byte) :
    relativeTarget next d = BitVec.ofInt 16 ((next.toNat : Int) + d.toInt) := by
  have h : sext16 d = BitVec.ofInt 16 d.toInt := rfl
  have h' : next = BitVec.ofInt 16 (next.toNat : Int) := by simp
  rw [relativeTarget, h, BitVec.ofInt_add, ← h']

/-- No row of a write or read-modify-write mnemonic is marked (rule R504). -/
theorem baseCost_stores {i : Instr} (h : i.kind ∈ writeKinds ∨ i.kind ∈ rmwKinds) (crossed : Bool) :
    baseCost i.opcode crossed = i.row.cycles.getD 1 := by
  have rows : ∀ op : Byte, (opcodeRow op).kind ∈ writeKinds ∨ (opcodeRow op).kind ∈ rmwKinds →
      (opcodeRow op).pageCross = false := by decide +kernel
  simp [baseCost, rows _ h, Instr.row]

theorem nzOf_eq (f : Flags) (v : Byte) : nzOf f v = f.setNZ v := by
  have h : (v.toNat = 0) = (v = 0) := by
    rw [eq_iff_iff]; exact ⟨fun h => BitVec.eq_of_toNat_eq h, fun h => by rw [h]; rfl⟩
  simp only [nzOf, h]; rfl

theorem cpuRegion_oamDma_iff (a : Addr) : cpuRegion a = .oamDma ↔ a.toNat = 0x4014 := by
  unfold cpuRegion
  simp only []
  split_ifs <;> simp <;> omega

theorem stallOf_eq (s : State) (cost : Nat) (ea : Addr) : stallOf s cost ea = dmaStall s.cycles cost ea := by
  simp only [stallOf, dmaStall, cpuRegion_oamDma_iff]

theorem sum9_lt (a b : Byte) (c : Bool) : sum9 a b c < 512 := by
  have := a.isLt; have := b.isLt; have := c.toNat_le; unfold sum9; omega

/-- The 9-bit intermediate of the shared adder is the sum of its inputs (rule R161). -/
theorem nineBit_toNat (a b : Byte) (c : Bool) :
    (a.setWidth 9 + b.setWidth 9 + (BitVec.ofBool c).setWidth 9 : BitVec 9).toNat = sum9 a b c := by
  have h1 := a.isLt; have h2 := b.isLt; have h3 := sum9_lt a b c
  have hc : (BitVec.ofBool c).toNat = c.toNat := by cases c <;> rfl
  have hc1 := c.toNat_le
  simp only [BitVec.toNat_add, BitVec.toNat_setWidth, hc]
  unfold sum9 at h3 ⊢
  omega

theorem addWithCarry_fst (a b : Byte) (f : Flags) : (addWithCarry a b f).1 = BitVec.ofNat 8 (sum9 a b f.c) := by
  apply BitVec.eq_of_toNat_eq
  simp only [addWithCarry, BitVec.toNat_setWidth, nineBit_toNat, BitVec.toNat_ofNat]

/-- The shared adder's flags, with the carry as a comparison of the unsigned sum (rule R161). -/
theorem addWithCarry_snd (a b : Byte) (f : Flags) :
    (addWithCarry a b f).2 =
      { nzOf f (BitVec.ofNat 8 (sum9 a b f.c)) with
        c := decide (256 ≤ sum9 a b f.c), v := overflowBit a b (BitVec.ofNat 8 (sum9 a b f.c)) } := by
  have h := sum9_lt a b f.c
  have hc : (a.setWidth 9 + b.setWidth 9 + (BitVec.ofBool f.c).setWidth 9 : BitVec 9).getLsbD 8 =
      decide (256 ≤ sum9 a b f.c) := by
    rw [BitVec.getLsbD, nineBit_toNat, Nat.testBit_eq_decide_div_mod_eq]
    congr 1
    rw [eq_iff_iff]
    omega
  have hr : (a.setWidth 9 + b.setWidth 9 + (BitVec.ofBool f.c).setWidth 9 : BitVec 9).setWidth 8 =
      BitVec.ofNat 8 (sum9 a b f.c) := addWithCarry_fst a b f
  rw [nzOf_eq]
  simp only [addWithCarry, hc, hr]
  rfl

/-- `A <- AddWithCarry(A, b, C)` on the state is the statement's own account of it. -/
theorem adcEffect_eq (b : Byte) (s : State) : adcEffect b s = afterAdd s s.flags b := by
  simp only [adcEffect, afterAdd, addWithCarry_fst, addWithCarry_snd, State.setA, State.setFlags]

theorem compareFlags_eq (f : Flags) (reg m : Byte) : compareFlags reg m f = compared f reg m := rfl

/-- The pushed status byte as a number (rule R24). -/
theorem pack_eq (f : Flags) (b : Bool) :
    f.pack b = BitVec.ofNat 8 (128 * f.n.toNat + 64 * f.v.toNat + 32 + 16 * b.toNat + 8 * f.d.toNat +
      4 * f.i.toNat + 2 * f.z.toNat + f.c.toNat) := by
  obtain ⟨n, v, d, i, z, c⟩ := f
  cases n <;> cases v <;> cases d <;> cases i <;> cases z <;> cases c <;> cases b <;> rfl

theorem unpack_pack (f : Flags) (b : Bool) : Flags.unpack (f.pack b) = f := by
  obtain ⟨n, v, d, i, z, c⟩ := f
  cases n <;> cases v <;> cases d <;> cases i <;> cases z <;> cases c <;> cases b <;> rfl

theorem shiftAsl_fst (m : Byte) (f : Flags) : (shiftAsl m f).1 = BitVec.ofNat 8 (2 * m.toNat) := by
  apply BitVec.eq_of_toNat_eq
  simp [shiftAsl, Nat.shiftLeft_eq, Nat.mul_comm]

theorem shiftLsr_fst (m : Byte) (f : Flags) : (shiftLsr m f).1 = BitVec.ofNat 8 (m.toNat / 2) := by
  have := m.isLt
  apply BitVec.eq_of_toNat_eq
  simp [shiftLsr, Nat.shiftRight_eq_div_pow]
  omega

theorem shiftRol_fst (m : Byte) (f : Flags) : (shiftRol m f).1 = BitVec.ofNat 8 (2 * m.toNat + f.c.toNat) := by
  have h : ∀ (m : Byte) (c : Bool),
      (m <<< 1) ||| (BitVec.ofBool c).setWidth 8 = BitVec.ofNat 8 (2 * m.toNat + c.toNat) := by decide
  exact h m f.c

theorem shiftRor_fst (m : Byte) (f : Flags) : (shiftRor m f).1 = BitVec.ofNat 8 (m.toNat / 2 + 128 * f.c.toNat) := by
  have h : ∀ (m : Byte) (c : Bool), (m >>> 1) ||| ((BitVec.ofBool c).setWidth 8 <<< 7) =
      BitVec.ofNat 8 (m.toNat / 2 + 128 * c.toNat) := by decide
  exact h m f.c

/-- The nametable cell of an address, as a number over its bits 11 to 0 (rule R70). -/
theorem nametableAddress_toNat (m : Mirroring) (x : BitVec 14) :
    (nametableAddress m x).toNat =
      (match m with
      | .horizontal => 1024 * (x.toNat / 2048 % 2) + x.toNat % 1024
      | .vertical => 1024 * (x.toNat / 1024 % 2) + x.toNat % 1024
      | .singleLower => x.toNat % 1024
      | .singleUpper => 1024 + x.toNat % 1024) := by
  have joined : ∀ (b : BitVec 1) (o : BitVec 10), (b ++ o : BitVec 11).toNat = 1024 * b.toNat + o.toNat := by
    intro b o
    have := o.isLt
    rw [BitVec.toNat_append, ← Nat.shiftLeft_add_eq_or_of_lt (by omega), Nat.shiftLeft_eq]
    omega
  unfold nametableAddress
  cases m <;> simp [joined, Nat.shiftRight_eq_div_pow]

/-- The palette cell of an address (rule R71). -/
theorem palIndex_eq (x : BitVec 14) : palIndex x = if x.toNat % 4 = 0 then 0 else x.toNat % 32 := by
  have : x.toNat % 32 % 4 = x.toNat % 4 := by omega
  simp only [palIndex, this]

/-- Variant 0's CHR storage is one bank of 8 KiB (rule R77). -/
theorem chrOffset_variant0 {c : Cartridge} (h : c.mapper = .variant0) (x : BitVec 14) :
    c.chrOffset x = x.toNat % 8192 := by
  simp [Cartridge.chrOffset, Cartridge.translatePpu, h]

/-- One step of the OAM-DMA copy, the address and the cell as numbers (rule R87). -/
theorem dmaByte_eq (v : Byte) (s : State) {i : Nat} (h : i < 256) :
    dmaByte v s i =
      (let r := memRead (BitVec.ofNat 16 (256 * v.toNat + i)) s
      { r.2 with ppu := { r.2.ppu with oam := r.2.ppu.oam.write ((r.2.ppu.oamAddr.toNat + i) % 256) r.1 } }) := by
  have source : word16 v (BitVec.ofNat 8 i) = BitVec.ofNat 16 (256 * v.toNat + i) := by
    rw [word16_eq, BitVec.toNat_ofNat, Nat.mod_eq_of_lt (by omega)]
  simp only [dmaByte, source, BitVec.toNat_add, BitVec.toNat_ofNat, Nat.add_mod_mod]
  rfl

end Sys2Proof.Machine
end

