-- ==== Sys2Proof/Laws/Control.lean ====
section
/-! SUPPORT. What no instruction changes: the cycle counter, the latches and the inputs, the parameters, the ROM, the
picture unit's position in the frame; and that every effect keeps the invariant. -/

namespace Sys2Proof.Machine

/-- What the image fixed of a cartridge: the header's facts, the PRG banks, and the CHR banks where it declares CHR pages
(rules R74, R76, R77). -/
structure Cartridge.SameRom (c d : Cartridge) : Prop where
  mapper : d.mapper = c.mapper
  prgPages : d.prgPages = c.prgPages
  chrPages : d.chrPages = c.chrPages
  verticalFlag : d.verticalFlag = c.verticalFlag
  mapper0Wram : d.mapper0Wram = c.mapper0Wram
  prg : d.prg = c.prg
  chr : c.chrPages ≠ 0 → d.chr = c.chr

@[refl] theorem Cartridge.SameRom.refl (c : Cartridge) : c.SameRom c := by
  constructor <;> first | rfl | exact fun _ => rfl

theorem Cartridge.SameRom.trans {c d e : Cartridge} (h : c.SameRom d) (h' : d.SameRom e) : c.SameRom e :=
  ⟨h'.mapper.trans h.mapper, h'.prgPages.trans h.prgPages, h'.chrPages.trans h.chrPages,
    h'.verticalFlag.trans h.verticalFlag, h'.mapper0Wram.trans h.mapper0Wram, h'.prg.trans h.prg,
    fun hc => (h'.chr (h.chrPages ▸ hc)).trans (h.chr hc)⟩

/-- A CPU write to the cartridge leaves what the image fixed. -/
theorem Cartridge.setCpuAt_sameRom (c : Cartridge) (a : Addr) (v : Byte) : c.SameRom (c.setCpuAt a v) := by
  unfold Cartridge.setCpuAt Cartridge.serialWrite Cartridge.commit
  repeat' split
  all_goals constructor <;> first | rfl | exact fun _ => rfl

/-- So does a picture-unit write: only CHR RAM is writable (rule R77). -/
theorem Cartridge.setPpuAt_sameRom (c : Cartridge) (a : BitVec 14) (v : Byte) : c.SameRom (c.setPpuAt a v) := by
  unfold Cartridge.setPpuAt
  split
  · rename_i h0; constructor <;> first | rfl | exact fun h => absurd h0 h
  · exact .refl c

/-- The parts of the machine no instruction changes. -/
structure SameControl (s t : State) : Prop where
  cycles : t.cycles = s.cycles
  nmiPending : t.nmiPending = s.nmiPending
  resetPending : t.resetPending = s.resetPending
  irqLine : t.irqLine = s.irqLine
  params : t.params = s.params
  rom : s.cart.SameRom t.cart
  tick : t.ppu.tick = s.ppu.tick
  refused : t.refused = s.refused

theorem SameControl.refl (s : State) : SameControl s s := by constructor <;> rfl

theorem SameControl.trans {s t u : State} (h : SameControl s t) (h' : SameControl t u) : SameControl s u :=
  ⟨h'.cycles.trans h.cycles, h'.nmiPending.trans h.nmiPending, h'.resetPending.trans h.resetPending,
    h'.irqLine.trans h.irqLine, h'.params.trans h.params, h.rom.trans h'.rom, h'.tick.trans h.tick,
    h'.refused.trans h.refused⟩

theorem SameControl.prg {s t : State} (h : SameControl s t) : t.cart.prg = s.cart.prg := h.rom.prg

theorem SameControl.memRead (a : Addr) (s : State) : SameControl s (memRead a s).2 := by
  constructor <;> simp [Cartridge.SameRom.refl]

theorem ppuWrite_control (a : BitVec 14) (d : Byte) (s : State) : SameControl s (ppuWrite a d s) := by
  unfold ppuWrite
  split
  · constructor <;> first | rfl | exact Cartridge.setPpuAt_sameRom _ _ _
  · constructor <;> rfl
  · constructor <;> rfl

theorem writePpuReg_control (r : BitVec 3) (d : Byte) (s : State) : SameControl s (writePpuReg r d s) := by
  have hl : SameControl s (s.setPpu { s.ppu with ioLatch := d }) := by constructor <;> rfl
  unfold writePpuReg
  simp only []
  split
  · constructor <;> rfl
  · constructor <;> rfl
  · constructor <;> rfl
  · constructor <;> rfl
  · unfold Ppu.writeScroll; split <;> constructor <;> rfl
  · unfold Ppu.writeAddress; split <;> constructor <;> rfl
  · exact hl.trans ((ppuWrite_control _ _ _).trans (by constructor <;> rfl))
  · exact hl

theorem foldl_dmaByte_control (v : Byte) (l : List Nat) (s : State) : SameControl s (l.foldl (dmaByte v) s) := by
  induction l generalizing s with
  | nil => exact SameControl.refl s
  | cons i rest ih => exact ((SameControl.memRead _ s).trans (by constructor <;> rfl)).trans (ih (dmaByte v s i))

theorem SameControl.memWrite (a : Addr) (v : Byte) (s : State) : SameControl s (memWrite a v s) := by
  unfold Machine.memWrite
  split
  · constructor <;> rfl
  · exact writePpuReg_control _ _ _
  · exact foldl_dmaByte_control _ _ _
  · exact SameControl.refl _
  · exact SameControl.refl _
  · constructor <;> first | rfl | exact Cartridge.setCpuAt_sameRom _ _ _

/-- A change that leaves the control state as it is and keeps the invariant. -/
structure Keeps (s t : State) : Prop extends SameControl s t where
  wf : s.wf = true → t.wf = true

theorem Keeps.refl (s : State) : Keeps s s := ⟨SameControl.refl s, id⟩

theorem Keeps.trans {s t u : State} (h : Keeps s t) (h' : Keeps t u) : Keeps s u :=
  ⟨h.toSameControl.trans h'.toSameControl, h'.wf ∘ h.wf⟩

theorem Keeps.memRead (a : Addr) (s : State) : Keeps s (memRead a s).2 := ⟨.memRead a s, fun h => memRead_wf h a⟩

theorem Keeps.memWrite (a : Addr) (v : Byte) (s : State) : Keeps s (memWrite a v s) :=
  ⟨.memWrite a v s, fun h => memWrite_wf h a v⟩

/-- A change of core registers only. -/
theorem Keeps.registers {s t : State} (h : SameControl s t) (hr : t.ram = s.ram) (hc : t.cart = s.cart)
    (hp : t.ppu = s.ppu) : Keeps s t := ⟨h, fun hw => by unfold State.wf at *; rw [hr, hc, hp]; exact hw⟩

theorem Keeps.push (v : Byte) (s : State) : Keeps s (push v s) :=
  (Keeps.memWrite _ v s).trans (.registers (by constructor <;> rfl) rfl rfl rfl)

theorem Keeps.pull (s : State) : Keeps s (pull s).2 := by
  rw [pull_eq]; exact .registers (by constructor <;> rfl) rfl rfl rfl

theorem Keeps.push16 (w : Addr) (s : State) : Keeps s (push16 w s) := (Keeps.push _ _).trans (Keeps.push _ _)

theorem Keeps.pull16 (s : State) : Keeps s (pull16 s).2 := by
  rw [pull16_eq]; exact .registers (by constructor <;> rfl) rfl rfl rfl

theorem Keeps.load (src : Source) (s : State) : Keeps s (load src s).state := by
  cases src with
  | immediate m => exact .refl s
  | memory o => simpa [Machine.load] using Keeps.memRead (resolve o s).ea s

theorem Keeps.setRemaining (s : State) (n : Nat) : Keeps s (s.setRemaining n) :=
  .registers (by constructor <;> rfl) rfl rfl rfl

theorem Keeps.setFlags (s : State) (f : Flags) : Keeps s (s.setFlags f) :=
  .registers (by constructor <;> rfl) rfl rfl rfl

theorem Keeps.setA (s : State) (v : Byte) : Keeps s (s.setA v) := .registers (by constructor <;> rfl) rfl rfl rfl

theorem Keeps.setPc (s : State) (w : Addr) : Keeps s (s.setPc w) := .registers (by constructor <;> rfl) rfl rfl rfl

theorem Keeps.advance (s : State) (op : Byte) : Keeps s (s.advance op) := Keeps.setPc s _

/-- Interrupt entry changes registers and the stack only. -/
theorem Keeps.enterInterrupt (ret : Addr) (b : Bool) (vector : Addr) (hv : cpuRegion vector = .cartridge)
    (hv' : cpuRegion (vector + 1) = .cartridge) (s : State) : Keeps s (enterInterrupt ret b vector s) := by
  unfold Machine.enterInterrupt
  simp only [read16_cart hv hv']
  exact (Keeps.push16 ret s).trans ((Keeps.push _ _).trans ((Keeps.setFlags _ _).trans (Keeps.setPc _ _)))

theorem Keeps.readEffect (k : Mnemonic) (m : Byte) (s : State) : Keeps s (readEffect k m s) := by
  unfold Machine.readEffect
  split <;> exact .registers (by constructor <;> rfl) rfl rfl rfl

theorem Keeps.rmwEffect (k : Mnemonic) (m : Byte) (s : State) : Keeps s (rmwEffect k m s) := by
  unfold Machine.rmwEffect
  split <;> exact .registers (by constructor <;> rfl) rfl rfl rfl

theorem Keeps.impliedEffect (k : Mnemonic) (s : State) : Keeps s (impliedEffect k s) := by
  unfold Machine.impliedEffect
  split
  case h_11 => exact (Keeps.pull16 s).trans (Keeps.setPc _ _)
  case h_12 => exact Keeps.enterInterrupt _ _ _ (by decide) (by decide) s
  case h_13 =>
    exact (Keeps.pull s).trans ((Keeps.setFlags _ _).trans ((Keeps.pull16 _).trans (Keeps.setPc _ _)))
  case h_14 => exact Keeps.push _ _
  case h_15 => exact Keeps.push _ _
  case h_16 => exact (Keeps.pull s).trans ((Keeps.setA _ _).trans (Keeps.setFlags _ _))
  case h_17 => exact (Keeps.pull s).trans (Keeps.setFlags _ _)
  all_goals exact .registers (by constructor <;> rfl) rfl rfl rfl

theorem Keeps.unstableEffect (k : Mnemonic) (o : Operand) (s : State) : Keeps s (unstableEffect k o s).1 := by
  have store : ∀ (o : MemOperand) (v : Byte), Keeps s (corruptibleStore o v s).1 := by
    intro o v
    unfold corruptibleStore
    simp only [resolve_state]
    split
    · exact Keeps.trans (t := s.drawn) (.registers (by constructor <;> rfl) rfl rfl rfl) (Keeps.memWrite _ _ _)
    · exact Keeps.memWrite _ _ _
  unfold Machine.unstableEffect
  split
  · exact .registers (by constructor <;> rfl) rfl rfl rfl
  · exact .registers (by constructor <;> rfl) rfl rfl rfl
  · exact (Keeps.load _ s).trans (.registers (by constructor <;> rfl) rfl rfl rfl)
  · exact store _ _
  · exact store _ _
  · exact store _ _
  · unfold tasEffect
    simp only [resolve_state]
    exact Keeps.trans (t := s.setSp (s.a &&& s.x)) (.registers (by constructor <;> rfl) rfl rfl rfl)
      (Keeps.memWrite _ _ _)
  · exact .refl s

theorem Keeps.jmpIndirectEffect (w : Addr) (s : State) : Keeps s (jmpIndirectEffect w s) :=
  (Keeps.memRead w s).trans ((Keeps.memRead _ _).trans (Keeps.setPc _ _))

theorem Keeps.jsrEffect (w : Addr) (s : State) : Keeps s (jsrEffect w s) := (Keeps.push16 _ s).trans (Keeps.setPc _ _)

/-! ### The instruction forms -/

theorem impliedInstr_keeps {op : Byte} {f : State → State} (hf : ∀ s, Keeps s (f s)) {s t : State}
    (h : impliedInstr op f s = .next t) : Keeps s t := by
  cases h; exact (Keeps.advance s op).trans ((hf _).trans (Keeps.setRemaining _ _))

theorem readInstr_keeps {op : Byte} {src : Source} {f : Byte → State → State} (hf : ∀ m s, Keeps s (f m s)) {s t : State}
    (h : readInstr op src f s = .next t) : Keeps s t := by
  cases h; exact (Keeps.advance s op).trans ((Keeps.load src _).trans ((hf _ _).trans (Keeps.setRemaining _ _)))

theorem writeInstr_keeps {op : Byte} {o : MemOperand} {f : State → Byte} {s t : State}
    (h : writeInstr op o f s = .next t) : Keeps s t := by
  cases h
  simp only [resolve_state]
  exact (Keeps.advance s op).trans ((Keeps.memWrite _ _ _).trans (Keeps.setRemaining _ _))

theorem rmwInstr_keeps {op : Byte} {target : Target} {m : Byte → Flags → Byte × Flags} {f : Byte → State → State}
    (hf : ∀ m s, Keeps s (f m s)) {s t : State} (h : rmwInstr op target m f s = .next t) : Keeps s t := by
  unfold rmwInstr at h
  cases target with
  | accumulator =>
    cases h
    exact (Keeps.advance s op).trans
      ((Keeps.setFlags _ _).trans ((Keeps.setA _ _).trans ((hf _ _).trans (Keeps.setRemaining _ _))))
  | memory o =>
    cases h
    simp only [resolve_state]
    exact (Keeps.advance s op).trans ((Keeps.memRead _ _).trans ((Keeps.memWrite _ _ _).trans
      ((Keeps.setFlags _ _).trans ((hf _ _).trans (Keeps.setRemaining _ _)))))

theorem branchInstr_keeps {op : Byte} {c : Flags → Bool} {d : Byte} {s t : State}
    (h : branchInstr op c d s = .next t) : Keeps s t := by
  unfold branchInstr at h
  simp only [] at h
  split at h <;> cases h
  · exact (Keeps.advance s op).trans ((Keeps.setPc _ _).trans (Keeps.setRemaining _ _))
  · exact (Keeps.advance s op).trans (Keeps.setRemaining _ _)

theorem unstableInstr_keeps {op : Byte} {f : State → State × (Nat → Nat)} (hf : ∀ s, Keeps s (f s).1) {s t : State}
    (hp : s.params.unstable = .silicon) (h : unstableInstr op f s = .next t) : Keeps s t := by
  unfold unstableInstr at h
  rw [hp] at h
  cases h
  exact (Keeps.advance s op).trans ((hf _).trans (Keeps.setRemaining _ _))

/-- An instruction that runs keeps the control state and the invariant; only an unstable opcode under
`UNSTABLE_OPCODES = refuse` does not run (rule R240). -/
theorem exec_keeps {i : Instr} {s t : State} (hw : i.wellFormed = true)
    (hu : i.kind ∉ unstableKinds ∨ s.params.unstable = .silicon) (h : exec i s = .next t) : Keeps s t := by
  have hf := exec_form hw s
  rw [h] at hf
  generalize i.kind = k at hf hu
  generalize i.operand = o at hf
  revert hf
  unfold execForm
  split
  · exact fun hf => impliedInstr_keeps (fun s => Keeps.setPc s _) (Option.some.inj hf)
  · exact fun hf => impliedInstr_keeps (Keeps.jmpIndirectEffect _) (Option.some.inj hf)
  · exact fun hf => impliedInstr_keeps (Keeps.jsrEffect _) (Option.some.inj hf)
  · split
    · exact fun hf => impliedInstr_keeps (Keeps.impliedEffect _) (Option.some.inj hf)
    · nofun
  · split
    · exact fun hf => branchInstr_keeps (Option.some.inj hf)
    · nofun
  · split
    · exact fun hf => rmwInstr_keeps (Keeps.rmwEffect _) (Option.some.inj hf)
    · nofun
  · split
    · exact fun hf => readInstr_keeps (Keeps.readEffect _) (Option.some.inj hf)
    · split
      · rename_i hk
        exact fun hf => unstableInstr_keeps (Keeps.unstableEffect _ _) (hu.resolve_left (absurd hk)) (Option.some.inj hf)
      · nofun
  · split
    · exact fun hf => readInstr_keeps (Keeps.readEffect _) (Option.some.inj hf)
    · split
      · exact fun hf => writeInstr_keeps (Option.some.inj hf)
      · split
        · exact fun hf => rmwInstr_keeps (Keeps.rmwEffect _) (Option.some.inj hf)
        · split
          · rename_i hk
            exact fun hf =>
              unstableInstr_keeps (Keeps.unstableEffect _ _) (hu.resolve_left (absurd hk)) (Option.some.inj hf)
          · nofun
  · nofun

end Sys2Proof.Machine
end

