-- ==== Sys2Proof/Laws/PerInstr.lean ====
section
/-! SUPPORT. What is said of every instruction as syntax, one lemma for each constructor of `Instr`. -/

namespace Sys2Proof.Laws.EncodingLength

/-- An instruction's encoding is as long as its opcode's table row says (rules R101, R104). -/
def Statement (i : Instr) : Prop := i.wellFormed = true → (encode i).length = i.row.length

theorem brk : Statement .brk :=
  fun _ => (congrArg Row.length opcodeRow_00).symm
theorem oraIndX (a : Byte) : Statement (.oraIndX a) :=
  fun _ => (congrArg Row.length opcodeRow_01).symm
theorem jam (op : Byte) : Statement (.jam op) := fun h =>
  (show ∀ b ∈ jamOpcodes, (opcodeRow b).length = 1 by decide) op (of_decide_eq_true h) |>.symm
theorem sloIndX (a : Byte) : Statement (.sloIndX a) :=
  fun _ => (congrArg Row.length opcodeRow_03).symm
theorem nopZp (op : Byte) (a : Byte) : Statement (.nopZp op a) := fun h =>
  (show ∀ b ∈ nopZpOpcodes, (opcodeRow b).length = 2 by decide) op (of_decide_eq_true h) |>.symm
theorem oraZp (a : Byte) : Statement (.oraZp a) :=
  fun _ => (congrArg Row.length opcodeRow_05).symm
theorem aslZp (a : Byte) : Statement (.aslZp a) :=
  fun _ => (congrArg Row.length opcodeRow_06).symm
theorem sloZp (a : Byte) : Statement (.sloZp a) :=
  fun _ => (congrArg Row.length opcodeRow_07).symm
theorem php : Statement .php :=
  fun _ => (congrArg Row.length opcodeRow_08).symm
theorem oraImm (m : Byte) : Statement (.oraImm m) :=
  fun _ => (congrArg Row.length opcodeRow_09).symm
theorem aslAcc : Statement .aslAcc :=
  fun _ => (congrArg Row.length opcodeRow_0A).symm
theorem ancImm (op : Byte) (m : Byte) : Statement (.ancImm op m) := fun h =>
  (show ∀ b ∈ ancImmOpcodes, (opcodeRow b).length = 2 by decide) op (of_decide_eq_true h) |>.symm
theorem nopAbs (w : Addr) : Statement (.nopAbs w) :=
  fun _ => (congrArg Row.length opcodeRow_0C).symm
theorem oraAbs (w : Addr) : Statement (.oraAbs w) :=
  fun _ => (congrArg Row.length opcodeRow_0D).symm
theorem aslAbs (w : Addr) : Statement (.aslAbs w) :=
  fun _ => (congrArg Row.length opcodeRow_0E).symm
theorem sloAbs (w : Addr) : Statement (.sloAbs w) :=
  fun _ => (congrArg Row.length opcodeRow_0F).symm
theorem bpl (d : Byte) : Statement (.bpl d) :=
  fun _ => (congrArg Row.length opcodeRow_10).symm
theorem oraIndY (a : Byte) : Statement (.oraIndY a) :=
  fun _ => (congrArg Row.length opcodeRow_11).symm
theorem sloIndY (a : Byte) : Statement (.sloIndY a) :=
  fun _ => (congrArg Row.length opcodeRow_13).symm
theorem nopZpX (op : Byte) (a : Byte) : Statement (.nopZpX op a) := fun h =>
  (show ∀ b ∈ nopZpXOpcodes, (opcodeRow b).length = 2 by decide) op (of_decide_eq_true h) |>.symm
theorem oraZpX (a : Byte) : Statement (.oraZpX a) :=
  fun _ => (congrArg Row.length opcodeRow_15).symm
theorem aslZpX (a : Byte) : Statement (.aslZpX a) :=
  fun _ => (congrArg Row.length opcodeRow_16).symm
theorem sloZpX (a : Byte) : Statement (.sloZpX a) :=
  fun _ => (congrArg Row.length opcodeRow_17).symm
theorem clc : Statement .clc :=
  fun _ => (congrArg Row.length opcodeRow_18).symm
theorem oraAbsY (w : Addr) : Statement (.oraAbsY w) :=
  fun _ => (congrArg Row.length opcodeRow_19).symm
theorem nopImp (op : Byte) : Statement (.nopImp op) := fun h =>
  (show ∀ b ∈ nopImpOpcodes, (opcodeRow b).length = 1 by decide) op (of_decide_eq_true h) |>.symm
theorem sloAbsY (w : Addr) : Statement (.sloAbsY w) :=
  fun _ => (congrArg Row.length opcodeRow_1B).symm
theorem nopAbsX (op : Byte) (w : Addr) : Statement (.nopAbsX op w) := fun h =>
  (show ∀ b ∈ nopAbsXOpcodes, (opcodeRow b).length = 3 by decide) op (of_decide_eq_true h) |>.symm
theorem oraAbsX (w : Addr) : Statement (.oraAbsX w) :=
  fun _ => (congrArg Row.length opcodeRow_1D).symm
theorem aslAbsX (w : Addr) : Statement (.aslAbsX w) :=
  fun _ => (congrArg Row.length opcodeRow_1E).symm
theorem sloAbsX (w : Addr) : Statement (.sloAbsX w) :=
  fun _ => (congrArg Row.length opcodeRow_1F).symm
theorem jsrAbs (w : Addr) : Statement (.jsrAbs w) :=
  fun _ => (congrArg Row.length opcodeRow_20).symm
theorem andIndX (a : Byte) : Statement (.andIndX a) :=
  fun _ => (congrArg Row.length opcodeRow_21).symm
theorem rlaIndX (a : Byte) : Statement (.rlaIndX a) :=
  fun _ => (congrArg Row.length opcodeRow_23).symm
theorem bitZp (a : Byte) : Statement (.bitZp a) :=
  fun _ => (congrArg Row.length opcodeRow_24).symm
theorem andZp (a : Byte) : Statement (.andZp a) :=
  fun _ => (congrArg Row.length opcodeRow_25).symm
theorem rolZp (a : Byte) : Statement (.rolZp a) :=
  fun _ => (congrArg Row.length opcodeRow_26).symm
theorem rlaZp (a : Byte) : Statement (.rlaZp a) :=
  fun _ => (congrArg Row.length opcodeRow_27).symm
theorem plp : Statement .plp :=
  fun _ => (congrArg Row.length opcodeRow_28).symm
theorem andImm (m : Byte) : Statement (.andImm m) :=
  fun _ => (congrArg Row.length opcodeRow_29).symm
theorem rolAcc : Statement .rolAcc :=
  fun _ => (congrArg Row.length opcodeRow_2A).symm
theorem bitAbs (w : Addr) : Statement (.bitAbs w) :=
  fun _ => (congrArg Row.length opcodeRow_2C).symm
theorem andAbs (w : Addr) : Statement (.andAbs w) :=
  fun _ => (congrArg Row.length opcodeRow_2D).symm
theorem rolAbs (w : Addr) : Statement (.rolAbs w) :=
  fun _ => (congrArg Row.length opcodeRow_2E).symm
theorem rlaAbs (w : Addr) : Statement (.rlaAbs w) :=
  fun _ => (congrArg Row.length opcodeRow_2F).symm
theorem bmi (d : Byte) : Statement (.bmi d) :=
  fun _ => (congrArg Row.length opcodeRow_30).symm
theorem andIndY (a : Byte) : Statement (.andIndY a) :=
  fun _ => (congrArg Row.length opcodeRow_31).symm
theorem rlaIndY (a : Byte) : Statement (.rlaIndY a) :=
  fun _ => (congrArg Row.length opcodeRow_33).symm
theorem andZpX (a : Byte) : Statement (.andZpX a) :=
  fun _ => (congrArg Row.length opcodeRow_35).symm
theorem rolZpX (a : Byte) : Statement (.rolZpX a) :=
  fun _ => (congrArg Row.length opcodeRow_36).symm
theorem rlaZpX (a : Byte) : Statement (.rlaZpX a) :=
  fun _ => (congrArg Row.length opcodeRow_37).symm
theorem sec : Statement .sec :=
  fun _ => (congrArg Row.length opcodeRow_38).symm
theorem andAbsY (w : Addr) : Statement (.andAbsY w) :=
  fun _ => (congrArg Row.length opcodeRow_39).symm
theorem rlaAbsY (w : Addr) : Statement (.rlaAbsY w) :=
  fun _ => (congrArg Row.length opcodeRow_3B).symm
theorem andAbsX (w : Addr) : Statement (.andAbsX w) :=
  fun _ => (congrArg Row.length opcodeRow_3D).symm
theorem rolAbsX (w : Addr) : Statement (.rolAbsX w) :=
  fun _ => (congrArg Row.length opcodeRow_3E).symm
theorem rlaAbsX (w : Addr) : Statement (.rlaAbsX w) :=
  fun _ => (congrArg Row.length opcodeRow_3F).symm
theorem rti : Statement .rti :=
  fun _ => (congrArg Row.length opcodeRow_40).symm
theorem eorIndX (a : Byte) : Statement (.eorIndX a) :=
  fun _ => (congrArg Row.length opcodeRow_41).symm
theorem sreIndX (a : Byte) : Statement (.sreIndX a) :=
  fun _ => (congrArg Row.length opcodeRow_43).symm
theorem eorZp (a : Byte) : Statement (.eorZp a) :=
  fun _ => (congrArg Row.length opcodeRow_45).symm
theorem lsrZp (a : Byte) : Statement (.lsrZp a) :=
  fun _ => (congrArg Row.length opcodeRow_46).symm
theorem sreZp (a : Byte) : Statement (.sreZp a) :=
  fun _ => (congrArg Row.length opcodeRow_47).symm
theorem pha : Statement .pha :=
  fun _ => (congrArg Row.length opcodeRow_48).symm
theorem eorImm (m : Byte) : Statement (.eorImm m) :=
  fun _ => (congrArg Row.length opcodeRow_49).symm
theorem lsrAcc : Statement .lsrAcc :=
  fun _ => (congrArg Row.length opcodeRow_4A).symm
theorem alrImm (m : Byte) : Statement (.alrImm m) :=
  fun _ => (congrArg Row.length opcodeRow_4B).symm
theorem jmpAbs (w : Addr) : Statement (.jmpAbs w) :=
  fun _ => (congrArg Row.length opcodeRow_4C).symm
theorem eorAbs (w : Addr) : Statement (.eorAbs w) :=
  fun _ => (congrArg Row.length opcodeRow_4D).symm
theorem lsrAbs (w : Addr) : Statement (.lsrAbs w) :=
  fun _ => (congrArg Row.length opcodeRow_4E).symm
theorem sreAbs (w : Addr) : Statement (.sreAbs w) :=
  fun _ => (congrArg Row.length opcodeRow_4F).symm
theorem bvc (d : Byte) : Statement (.bvc d) :=
  fun _ => (congrArg Row.length opcodeRow_50).symm
theorem eorIndY (a : Byte) : Statement (.eorIndY a) :=
  fun _ => (congrArg Row.length opcodeRow_51).symm
theorem sreIndY (a : Byte) : Statement (.sreIndY a) :=
  fun _ => (congrArg Row.length opcodeRow_53).symm
theorem eorZpX (a : Byte) : Statement (.eorZpX a) :=
  fun _ => (congrArg Row.length opcodeRow_55).symm
theorem lsrZpX (a : Byte) : Statement (.lsrZpX a) :=
  fun _ => (congrArg Row.length opcodeRow_56).symm
theorem sreZpX (a : Byte) : Statement (.sreZpX a) :=
  fun _ => (congrArg Row.length opcodeRow_57).symm
theorem cli : Statement .cli :=
  fun _ => (congrArg Row.length opcodeRow_58).symm
theorem eorAbsY (w : Addr) : Statement (.eorAbsY w) :=
  fun _ => (congrArg Row.length opcodeRow_59).symm
theorem sreAbsY (w : Addr) : Statement (.sreAbsY w) :=
  fun _ => (congrArg Row.length opcodeRow_5B).symm
theorem eorAbsX (w : Addr) : Statement (.eorAbsX w) :=
  fun _ => (congrArg Row.length opcodeRow_5D).symm
theorem lsrAbsX (w : Addr) : Statement (.lsrAbsX w) :=
  fun _ => (congrArg Row.length opcodeRow_5E).symm
theorem sreAbsX (w : Addr) : Statement (.sreAbsX w) :=
  fun _ => (congrArg Row.length opcodeRow_5F).symm
theorem rts : Statement .rts :=
  fun _ => (congrArg Row.length opcodeRow_60).symm
theorem adcIndX (a : Byte) : Statement (.adcIndX a) :=
  fun _ => (congrArg Row.length opcodeRow_61).symm
theorem rraIndX (a : Byte) : Statement (.rraIndX a) :=
  fun _ => (congrArg Row.length opcodeRow_63).symm
theorem adcZp (a : Byte) : Statement (.adcZp a) :=
  fun _ => (congrArg Row.length opcodeRow_65).symm
theorem rorZp (a : Byte) : Statement (.rorZp a) :=
  fun _ => (congrArg Row.length opcodeRow_66).symm
theorem rraZp (a : Byte) : Statement (.rraZp a) :=
  fun _ => (congrArg Row.length opcodeRow_67).symm
theorem pla : Statement .pla :=
  fun _ => (congrArg Row.length opcodeRow_68).symm
theorem adcImm (m : Byte) : Statement (.adcImm m) :=
  fun _ => (congrArg Row.length opcodeRow_69).symm
theorem rorAcc : Statement .rorAcc :=
  fun _ => (congrArg Row.length opcodeRow_6A).symm
theorem arrImm (m : Byte) : Statement (.arrImm m) :=
  fun _ => (congrArg Row.length opcodeRow_6B).symm
theorem jmpInd (w : Addr) : Statement (.jmpInd w) :=
  fun _ => (congrArg Row.length opcodeRow_6C).symm
theorem adcAbs (w : Addr) : Statement (.adcAbs w) :=
  fun _ => (congrArg Row.length opcodeRow_6D).symm
theorem rorAbs (w : Addr) : Statement (.rorAbs w) :=
  fun _ => (congrArg Row.length opcodeRow_6E).symm
theorem rraAbs (w : Addr) : Statement (.rraAbs w) :=
  fun _ => (congrArg Row.length opcodeRow_6F).symm
theorem bvs (d : Byte) : Statement (.bvs d) :=
  fun _ => (congrArg Row.length opcodeRow_70).symm
theorem adcIndY (a : Byte) : Statement (.adcIndY a) :=
  fun _ => (congrArg Row.length opcodeRow_71).symm
theorem rraIndY (a : Byte) : Statement (.rraIndY a) :=
  fun _ => (congrArg Row.length opcodeRow_73).symm
theorem adcZpX (a : Byte) : Statement (.adcZpX a) :=
  fun _ => (congrArg Row.length opcodeRow_75).symm
theorem rorZpX (a : Byte) : Statement (.rorZpX a) :=
  fun _ => (congrArg Row.length opcodeRow_76).symm
theorem rraZpX (a : Byte) : Statement (.rraZpX a) :=
  fun _ => (congrArg Row.length opcodeRow_77).symm
theorem sei : Statement .sei :=
  fun _ => (congrArg Row.length opcodeRow_78).symm
theorem adcAbsY (w : Addr) : Statement (.adcAbsY w) :=
  fun _ => (congrArg Row.length opcodeRow_79).symm
theorem rraAbsY (w : Addr) : Statement (.rraAbsY w) :=
  fun _ => (congrArg Row.length opcodeRow_7B).symm
theorem adcAbsX (w : Addr) : Statement (.adcAbsX w) :=
  fun _ => (congrArg Row.length opcodeRow_7D).symm
theorem rorAbsX (w : Addr) : Statement (.rorAbsX w) :=
  fun _ => (congrArg Row.length opcodeRow_7E).symm
theorem rraAbsX (w : Addr) : Statement (.rraAbsX w) :=
  fun _ => (congrArg Row.length opcodeRow_7F).symm
theorem nopImm (op : Byte) (m : Byte) : Statement (.nopImm op m) := fun h =>
  (show ∀ b ∈ nopImmOpcodes, (opcodeRow b).length = 2 by decide) op (of_decide_eq_true h) |>.symm
theorem staIndX (a : Byte) : Statement (.staIndX a) :=
  fun _ => (congrArg Row.length opcodeRow_81).symm
theorem saxIndX (a : Byte) : Statement (.saxIndX a) :=
  fun _ => (congrArg Row.length opcodeRow_83).symm
theorem styZp (a : Byte) : Statement (.styZp a) :=
  fun _ => (congrArg Row.length opcodeRow_84).symm
theorem staZp (a : Byte) : Statement (.staZp a) :=
  fun _ => (congrArg Row.length opcodeRow_85).symm
theorem stxZp (a : Byte) : Statement (.stxZp a) :=
  fun _ => (congrArg Row.length opcodeRow_86).symm
theorem saxZp (a : Byte) : Statement (.saxZp a) :=
  fun _ => (congrArg Row.length opcodeRow_87).symm
theorem dey : Statement .dey :=
  fun _ => (congrArg Row.length opcodeRow_88).symm
theorem txa : Statement .txa :=
  fun _ => (congrArg Row.length opcodeRow_8A).symm
theorem xaaImm (m : Byte) : Statement (.xaaImm m) :=
  fun _ => (congrArg Row.length opcodeRow_8B).symm
theorem styAbs (w : Addr) : Statement (.styAbs w) :=
  fun _ => (congrArg Row.length opcodeRow_8C).symm
theorem staAbs (w : Addr) : Statement (.staAbs w) :=
  fun _ => (congrArg Row.length opcodeRow_8D).symm
theorem stxAbs (w : Addr) : Statement (.stxAbs w) :=
  fun _ => (congrArg Row.length opcodeRow_8E).symm
theorem saxAbs (w : Addr) : Statement (.saxAbs w) :=
  fun _ => (congrArg Row.length opcodeRow_8F).symm
theorem bcc (d : Byte) : Statement (.bcc d) :=
  fun _ => (congrArg Row.length opcodeRow_90).symm
theorem staIndY (a : Byte) : Statement (.staIndY a) :=
  fun _ => (congrArg Row.length opcodeRow_91).symm
theorem ahxIndY (a : Byte) : Statement (.ahxIndY a) :=
  fun _ => (congrArg Row.length opcodeRow_93).symm
theorem styZpX (a : Byte) : Statement (.styZpX a) :=
  fun _ => (congrArg Row.length opcodeRow_94).symm
theorem staZpX (a : Byte) : Statement (.staZpX a) :=
  fun _ => (congrArg Row.length opcodeRow_95).symm
theorem stxZpY (a : Byte) : Statement (.stxZpY a) :=
  fun _ => (congrArg Row.length opcodeRow_96).symm
theorem saxZpY (a : Byte) : Statement (.saxZpY a) :=
  fun _ => (congrArg Row.length opcodeRow_97).symm
theorem tya : Statement .tya :=
  fun _ => (congrArg Row.length opcodeRow_98).symm
theorem staAbsY (w : Addr) : Statement (.staAbsY w) :=
  fun _ => (congrArg Row.length opcodeRow_99).symm
theorem txs : Statement .txs :=
  fun _ => (congrArg Row.length opcodeRow_9A).symm
theorem tasAbsY (w : Addr) : Statement (.tasAbsY w) :=
  fun _ => (congrArg Row.length opcodeRow_9B).symm
theorem shyAbsX (w : Addr) : Statement (.shyAbsX w) :=
  fun _ => (congrArg Row.length opcodeRow_9C).symm
theorem staAbsX (w : Addr) : Statement (.staAbsX w) :=
  fun _ => (congrArg Row.length opcodeRow_9D).symm
theorem shxAbsY (w : Addr) : Statement (.shxAbsY w) :=
  fun _ => (congrArg Row.length opcodeRow_9E).symm
theorem ahxAbsY (w : Addr) : Statement (.ahxAbsY w) :=
  fun _ => (congrArg Row.length opcodeRow_9F).symm
theorem ldyImm (m : Byte) : Statement (.ldyImm m) :=
  fun _ => (congrArg Row.length opcodeRow_A0).symm
theorem ldaIndX (a : Byte) : Statement (.ldaIndX a) :=
  fun _ => (congrArg Row.length opcodeRow_A1).symm
theorem ldxImm (m : Byte) : Statement (.ldxImm m) :=
  fun _ => (congrArg Row.length opcodeRow_A2).symm
theorem laxIndX (a : Byte) : Statement (.laxIndX a) :=
  fun _ => (congrArg Row.length opcodeRow_A3).symm
theorem ldyZp (a : Byte) : Statement (.ldyZp a) :=
  fun _ => (congrArg Row.length opcodeRow_A4).symm
theorem ldaZp (a : Byte) : Statement (.ldaZp a) :=
  fun _ => (congrArg Row.length opcodeRow_A5).symm
theorem ldxZp (a : Byte) : Statement (.ldxZp a) :=
  fun _ => (congrArg Row.length opcodeRow_A6).symm
theorem laxZp (a : Byte) : Statement (.laxZp a) :=
  fun _ => (congrArg Row.length opcodeRow_A7).symm
theorem tay : Statement .tay :=
  fun _ => (congrArg Row.length opcodeRow_A8).symm
theorem ldaImm (m : Byte) : Statement (.ldaImm m) :=
  fun _ => (congrArg Row.length opcodeRow_A9).symm
theorem tax : Statement .tax :=
  fun _ => (congrArg Row.length opcodeRow_AA).symm
theorem lxaImm (m : Byte) : Statement (.lxaImm m) :=
  fun _ => (congrArg Row.length opcodeRow_AB).symm
theorem ldyAbs (w : Addr) : Statement (.ldyAbs w) :=
  fun _ => (congrArg Row.length opcodeRow_AC).symm
theorem ldaAbs (w : Addr) : Statement (.ldaAbs w) :=
  fun _ => (congrArg Row.length opcodeRow_AD).symm
theorem ldxAbs (w : Addr) : Statement (.ldxAbs w) :=
  fun _ => (congrArg Row.length opcodeRow_AE).symm
theorem laxAbs (w : Addr) : Statement (.laxAbs w) :=
  fun _ => (congrArg Row.length opcodeRow_AF).symm
theorem bcs (d : Byte) : Statement (.bcs d) :=
  fun _ => (congrArg Row.length opcodeRow_B0).symm
theorem ldaIndY (a : Byte) : Statement (.ldaIndY a) :=
  fun _ => (congrArg Row.length opcodeRow_B1).symm
theorem laxIndY (a : Byte) : Statement (.laxIndY a) :=
  fun _ => (congrArg Row.length opcodeRow_B3).symm
theorem ldyZpX (a : Byte) : Statement (.ldyZpX a) :=
  fun _ => (congrArg Row.length opcodeRow_B4).symm
theorem ldaZpX (a : Byte) : Statement (.ldaZpX a) :=
  fun _ => (congrArg Row.length opcodeRow_B5).symm
theorem ldxZpY (a : Byte) : Statement (.ldxZpY a) :=
  fun _ => (congrArg Row.length opcodeRow_B6).symm
theorem laxZpY (a : Byte) : Statement (.laxZpY a) :=
  fun _ => (congrArg Row.length opcodeRow_B7).symm
theorem clv : Statement .clv :=
  fun _ => (congrArg Row.length opcodeRow_B8).symm
theorem ldaAbsY (w : Addr) : Statement (.ldaAbsY w) :=
  fun _ => (congrArg Row.length opcodeRow_B9).symm
theorem tsx : Statement .tsx :=
  fun _ => (congrArg Row.length opcodeRow_BA).symm
theorem lasAbsY (w : Addr) : Statement (.lasAbsY w) :=
  fun _ => (congrArg Row.length opcodeRow_BB).symm
theorem ldyAbsX (w : Addr) : Statement (.ldyAbsX w) :=
  fun _ => (congrArg Row.length opcodeRow_BC).symm
theorem ldaAbsX (w : Addr) : Statement (.ldaAbsX w) :=
  fun _ => (congrArg Row.length opcodeRow_BD).symm
theorem ldxAbsY (w : Addr) : Statement (.ldxAbsY w) :=
  fun _ => (congrArg Row.length opcodeRow_BE).symm
theorem laxAbsY (w : Addr) : Statement (.laxAbsY w) :=
  fun _ => (congrArg Row.length opcodeRow_BF).symm
theorem cpyImm (m : Byte) : Statement (.cpyImm m) :=
  fun _ => (congrArg Row.length opcodeRow_C0).symm
theorem cmpIndX (a : Byte) : Statement (.cmpIndX a) :=
  fun _ => (congrArg Row.length opcodeRow_C1).symm
theorem dcpIndX (a : Byte) : Statement (.dcpIndX a) :=
  fun _ => (congrArg Row.length opcodeRow_C3).symm
theorem cpyZp (a : Byte) : Statement (.cpyZp a) :=
  fun _ => (congrArg Row.length opcodeRow_C4).symm
theorem cmpZp (a : Byte) : Statement (.cmpZp a) :=
  fun _ => (congrArg Row.length opcodeRow_C5).symm
theorem decZp (a : Byte) : Statement (.decZp a) :=
  fun _ => (congrArg Row.length opcodeRow_C6).symm
theorem dcpZp (a : Byte) : Statement (.dcpZp a) :=
  fun _ => (congrArg Row.length opcodeRow_C7).symm
theorem iny : Statement .iny :=
  fun _ => (congrArg Row.length opcodeRow_C8).symm
theorem cmpImm (m : Byte) : Statement (.cmpImm m) :=
  fun _ => (congrArg Row.length opcodeRow_C9).symm
theorem dex : Statement .dex :=
  fun _ => (congrArg Row.length opcodeRow_CA).symm
theorem axsImm (m : Byte) : Statement (.axsImm m) :=
  fun _ => (congrArg Row.length opcodeRow_CB).symm
theorem cpyAbs (w : Addr) : Statement (.cpyAbs w) :=
  fun _ => (congrArg Row.length opcodeRow_CC).symm
theorem cmpAbs (w : Addr) : Statement (.cmpAbs w) :=
  fun _ => (congrArg Row.length opcodeRow_CD).symm
theorem decAbs (w : Addr) : Statement (.decAbs w) :=
  fun _ => (congrArg Row.length opcodeRow_CE).symm
theorem dcpAbs (w : Addr) : Statement (.dcpAbs w) :=
  fun _ => (congrArg Row.length opcodeRow_CF).symm
theorem bne (d : Byte) : Statement (.bne d) :=
  fun _ => (congrArg Row.length opcodeRow_D0).symm
theorem cmpIndY (a : Byte) : Statement (.cmpIndY a) :=
  fun _ => (congrArg Row.length opcodeRow_D1).symm
theorem dcpIndY (a : Byte) : Statement (.dcpIndY a) :=
  fun _ => (congrArg Row.length opcodeRow_D3).symm
theorem cmpZpX (a : Byte) : Statement (.cmpZpX a) :=
  fun _ => (congrArg Row.length opcodeRow_D5).symm
theorem decZpX (a : Byte) : Statement (.decZpX a) :=
  fun _ => (congrArg Row.length opcodeRow_D6).symm
theorem dcpZpX (a : Byte) : Statement (.dcpZpX a) :=
  fun _ => (congrArg Row.length opcodeRow_D7).symm
theorem cld : Statement .cld :=
  fun _ => (congrArg Row.length opcodeRow_D8).symm
theorem cmpAbsY (w : Addr) : Statement (.cmpAbsY w) :=
  fun _ => (congrArg Row.length opcodeRow_D9).symm
theorem dcpAbsY (w : Addr) : Statement (.dcpAbsY w) :=
  fun _ => (congrArg Row.length opcodeRow_DB).symm
theorem cmpAbsX (w : Addr) : Statement (.cmpAbsX w) :=
  fun _ => (congrArg Row.length opcodeRow_DD).symm
theorem decAbsX (w : Addr) : Statement (.decAbsX w) :=
  fun _ => (congrArg Row.length opcodeRow_DE).symm
theorem dcpAbsX (w : Addr) : Statement (.dcpAbsX w) :=
  fun _ => (congrArg Row.length opcodeRow_DF).symm
theorem cpxImm (m : Byte) : Statement (.cpxImm m) :=
  fun _ => (congrArg Row.length opcodeRow_E0).symm
theorem sbcIndX (a : Byte) : Statement (.sbcIndX a) :=
  fun _ => (congrArg Row.length opcodeRow_E1).symm
theorem isbIndX (a : Byte) : Statement (.isbIndX a) :=
  fun _ => (congrArg Row.length opcodeRow_E3).symm
theorem cpxZp (a : Byte) : Statement (.cpxZp a) :=
  fun _ => (congrArg Row.length opcodeRow_E4).symm
theorem sbcZp (a : Byte) : Statement (.sbcZp a) :=
  fun _ => (congrArg Row.length opcodeRow_E5).symm
theorem incZp (a : Byte) : Statement (.incZp a) :=
  fun _ => (congrArg Row.length opcodeRow_E6).symm
theorem isbZp (a : Byte) : Statement (.isbZp a) :=
  fun _ => (congrArg Row.length opcodeRow_E7).symm
theorem inx : Statement .inx :=
  fun _ => (congrArg Row.length opcodeRow_E8).symm
theorem sbcImm (m : Byte) : Statement (.sbcImm m) :=
  fun _ => (congrArg Row.length opcodeRow_E9).symm
theorem nop : Statement .nop :=
  fun _ => (congrArg Row.length opcodeRow_EA).symm
theorem sbcImmEB (m : Byte) : Statement (.sbcImmEB m) :=
  fun _ => (congrArg Row.length opcodeRow_EB).symm
theorem cpxAbs (w : Addr) : Statement (.cpxAbs w) :=
  fun _ => (congrArg Row.length opcodeRow_EC).symm
theorem sbcAbs (w : Addr) : Statement (.sbcAbs w) :=
  fun _ => (congrArg Row.length opcodeRow_ED).symm
theorem incAbs (w : Addr) : Statement (.incAbs w) :=
  fun _ => (congrArg Row.length opcodeRow_EE).symm
theorem isbAbs (w : Addr) : Statement (.isbAbs w) :=
  fun _ => (congrArg Row.length opcodeRow_EF).symm
theorem beq (d : Byte) : Statement (.beq d) :=
  fun _ => (congrArg Row.length opcodeRow_F0).symm
theorem sbcIndY (a : Byte) : Statement (.sbcIndY a) :=
  fun _ => (congrArg Row.length opcodeRow_F1).symm
theorem isbIndY (a : Byte) : Statement (.isbIndY a) :=
  fun _ => (congrArg Row.length opcodeRow_F3).symm
theorem sbcZpX (a : Byte) : Statement (.sbcZpX a) :=
  fun _ => (congrArg Row.length opcodeRow_F5).symm
theorem incZpX (a : Byte) : Statement (.incZpX a) :=
  fun _ => (congrArg Row.length opcodeRow_F6).symm
theorem isbZpX (a : Byte) : Statement (.isbZpX a) :=
  fun _ => (congrArg Row.length opcodeRow_F7).symm
theorem sed : Statement .sed :=
  fun _ => (congrArg Row.length opcodeRow_F8).symm
theorem sbcAbsY (w : Addr) : Statement (.sbcAbsY w) :=
  fun _ => (congrArg Row.length opcodeRow_F9).symm
theorem isbAbsY (w : Addr) : Statement (.isbAbsY w) :=
  fun _ => (congrArg Row.length opcodeRow_FB).symm
theorem sbcAbsX (w : Addr) : Statement (.sbcAbsX w) :=
  fun _ => (congrArg Row.length opcodeRow_FD).symm
theorem incAbsX (w : Addr) : Statement (.incAbsX w) :=
  fun _ => (congrArg Row.length opcodeRow_FE).symm
theorem isbAbsX (w : Addr) : Statement (.isbAbsX w) :=
  fun _ => (congrArg Row.length opcodeRow_FF).symm

end Sys2Proof.Laws.EncodingLength
end

