-- ==== Sys2Proof/Laws/PpuTick.lean ====
section
/-! SUPPORT. What each part of a picture-unit tick can do: one frame lemma for each part, the values the background, the
sprites and the pixel output leave, and that the pixel and the hit the statements compute (Safety.lean) are the
machine's. -/

namespace Sys2Proof.Machine

theorem renderLine_iff (line : Nat) : renderLine line = true ↔ line < 240 ∨ line = 261 := by
  simp [renderLine]

/-! ### The addresses of rules R424 and R432, as numbers -/

theorem ntAddr_eq (v : BitVec 15) : ntAddr v = BitVec.ofNat 14 (0x2000 + v.toNat % 4096) := by
  apply BitVec.eq_of_toNat_eq
  have field : (v.extractLsb' 0 12).toNat = v.toNat % 4096 := by simp
  have add := Nat.two_pow_add_eq_or_of_lt (i := 13) (b := v.toNat % 4096) (by omega) 1
  simp only [ntAddr, BitVec.toNat_or, BitVec.toNat_setWidth, BitVec.toNat_ofNat, field]
  rw [Nat.mod_eq_of_lt (a := v.toNat % 4096) (by omega)]
  change 8192 + _ = 8192 ||| _ at add
  change 8192 ||| _ = _
  omega

theorem atAddr_eq (v : BitVec 15) :
    atAddr v =
      BitVec.ofNat 14 (0x23C0 + 1024 * (v.toNat / 1024 % 4) + 8 * (v.toNat / 128 % 8) + v.toNat / 4 % 8) := by
  have e1 : (v.extractLsb' 10 2).toNat = v.toNat / 1024 % 4 := by simp [Nat.shiftRight_eq_div_pow]
  have e2 : (v.extractLsb' 7 3).toNat = v.toNat / 128 % 8 := by simp [Nat.shiftRight_eq_div_pow]
  have e3 : (v.extractLsb' 2 3).toNat = v.toNat / 4 % 8 := by simp [Nat.shiftRight_eq_div_pow]
  have fields : ∀ (a : BitVec 2) (b c : BitVec 3),
      (0x23C0 ||| (a.setWidth 14 <<< 10) ||| (b.setWidth 14 <<< 3) ||| c.setWidth 14 : BitVec 14) =
        BitVec.ofNat 14 (0x23C0 + 1024 * a.toNat + 8 * b.toNat + c.toNat) := by decide
  rw [← e1, ← e2, ← e3, ← fields]
  rfl

theorem atBits_eq (v : BitVec 15) (b : Byte) :
    atBits v b = BitVec.ofNat 2 (b.toNat / 2 ^ (4 * (v.toNat / 64 % 2) + 2 * (v.toNat / 2 % 2))) := by
  have e6 : v.getLsbD 6 = decide (v.toNat / 64 % 2 = 1) := by rw [BitVec.getLsbD, Nat.testBit_eq_decide_div_mod_eq]
  have e1 : v.getLsbD 1 = decide (v.toNat / 2 % 2 = 1) := by rw [BitVec.getLsbD, Nat.testBit_eq_decide_div_mod_eq]
  apply BitVec.eq_of_toNat_eq
  simp only [atBits, e6, e1, decide_eq_true_eq, BitVec.extractLsb'_toNat, BitVec.toNat_ushiftRight,
    Nat.shiftRight_eq_div_pow, BitVec.toNat_ofNat]
  rcases Nat.mod_two_eq_zero_or_one (v.toNat / 64) with h | h <;>
    rcases Nat.mod_two_eq_zero_or_one (v.toNat / 2) with h' | h' <;> simp [h, h']

theorem Ppu.ptAddr_eq (p : Ppu) (n : Byte) (v : BitVec 15) :
    p.ptAddr n v =
      BitVec.ofNat 14 ((if p.ctrl.getLsbD 4 then 0x1000 else 0) + 16 * n.toNat + v.toNat / 4096) := by
  have fine : (fineY v).toNat = v.toNat / 4096 := by
    have := v.isLt
    simp [fineY, Nat.shiftRight_eq_div_pow]
    omega
  apply BitVec.eq_of_toNat_eq
  simp only [Ppu.ptAddr, BitVec.toNat_add, BitVec.toNat_mul, BitVec.toNat_setWidth, fine, BitVec.toNat_ofNat]
  change (((if bit p.ctrl 4 then (0x1000 : BitVec 14) else 0).toNat + _) % _ + _) % _ =
    ((if bit p.ctrl 4 then 0x1000 else 0) + _ + _) % _
  cases bit p.ctrl 4 <;> simp

/-- A slot's contents from its entry, by the row and the pattern address as integers (rule R432). -/
theorem Ppu.loadSlot_eq (cart : Cartridge) (line : Nat) (p : Ppu) (e : SpriteEntry) :
    let read := fun a : Int => ppuRead cart p (BitVec.ofInt 14 a)
    let height : Nat := if p.ctrl.getLsbD 5 then 16 else 8
    let row : Int := (if e.attr.getLsbD 7 then height - 1 - ((line : Int) - e.y.toNat) else (line : Int) - e.y.toNat)
    let at0 : Int :=
      if p.ctrl.getLsbD 5 then
        (if e.tile.getLsbD 0 then 0x1000 else 0) + 16 * (e.tile.toNat / 2 * 2 + (if 8 ≤ row then 1 else 0)) + row % 8
      else (if p.ctrl.getLsbD 3 then 0x1000 else 0) + 16 * e.tile.toNat + row
    let plane := fun b : Byte => if e.attr.getLsbD 6 then b.reverse else b
    p.loadSlot cart line e = SpriteSlot.mk (plane (read at0)) (plane (read (at0 + 8))) e.attr e.xpos := by
  intro read height row at0 plane
  have hrow : e.row line p.spriteHeight = row := rfl
  have even : ∀ t : Byte, (t &&& 0xFE).toNat = t.toNat / 2 * 2 := by decide
  have lo : p.spriteAddr e line = BitVec.ofInt 14 at0 := by
    show (if bit p.ctrl 5 then _ else _) = BitVec.ofInt 14 (if bit p.ctrl 5 then _ else _)
    rw [hrow, even]
    cases bit p.ctrl 5 <;> rfl
  have hi : BitVec.ofInt 14 at0 + 8 = BitVec.ofInt 14 (at0 + 8) := by
    rw [BitVec.ofInt_add]
    rfl
  unfold Ppu.loadSlot
  simp only [lo, hi, plane, read]
  show _ = SpriteSlot.mk (if bit e.attr 6 then _ else _) (if bit e.attr 6 then _ else _) _ _
  cases bit e.attr 6 <;> rfl

/-! ### Frames -/

/-- The flag events touch the three Status flags and the suppression only. -/
theorem Ppu.flagEvents_frame (p : Ppu) :
    p.flagEvents = { p with
      vblank := p.flagEvents.vblank
      suppress := p.flagEvents.suppress
      sprite0Hit := p.flagEvents.sprite0Hit
      spriteOverflow := p.flagEvents.spriteOverflow } := by
  unfold Ppu.flagEvents
  split_ifs <;> rfl

/-- The background steps touch the shifters, the latches and `v` only. -/
theorem Ppu.background_frame (cart : Cartridge) (line c : Nat) (p : Ppu) :
    p.background cart line c = { p with
      bgLo := (p.background cart line c).bgLo
      bgHi := (p.background cart line c).bgHi
      atLo := (p.background cart line c).atLo
      atHi := (p.background cart line c).atHi
      ntLatch := (p.background cart line c).ntLatch
      atLatch := (p.background cart line c).atLatch
      ptLoLatch := (p.background cart line c).ptLoLatch
      ptHiLatch := (p.background cart line c).ptHiLatch
      v := (p.background cart line c).v } := by
  have fetched : ∀ (k : Nat) (q : Ppu), q.fetchStep cart k = { q with
      ntLatch := (q.fetchStep cart k).ntLatch
      atLatch := (q.fetchStep cart k).atLatch
      ptLoLatch := (q.fetchStep cart k).ptLoLatch
      ptHiLatch := (q.fetchStep cart k).ptHiLatch
      v := (q.fetchStep cart k).v } := by
    intro k q
    unfold Ppu.fetchStep
    split <;> rfl
  have scrolled : ∀ q : Ppu, q.scrollEvents line c = { q with v := (q.scrollEvents line c).v } := by
    intro q
    unfold Ppu.scrollEvents
    split_ifs <;> rfl
  simp only [Ppu.background]
  rw [scrolled]
  cases fetchDue c <;> simp only [Bool.false_eq_true, if_false, if_true]
  · cases shiftDue c <;> cases reloadDue c <;> rfl
  · rw [fetched]
    cases shiftDue c <;> cases reloadDue c <;> rfl

/-- The sprite steps touch the secondary buffer, the slots and the overflow flag only. -/
theorem Ppu.sprites_frame (cart : Cartridge) (line c : Nat) (p : Ppu) :
    p.sprites cart line c = { p with
      sec := (p.sprites cart line c).sec
      secHas0 := (p.sprites cart line c).secHas0
      slots := (p.sprites cart line c).slots
      sprCount := (p.sprites cart line c).sprCount
      sprHas0 := (p.sprites cart line c).sprHas0
      spriteOverflow := (p.sprites cart line c).spriteOverflow } := by
  unfold Ppu.sprites
  split
  · unfold Ppu.evaluateSprites
    split <;> rfl
  · cases slotDue c with
    | none => rfl
    | some k =>
      simp only [Ppu.fetchSlot]
      cases p.sec[k.val]? <;> split_ifs <;> rfl

/-- Steps 2 to 4 of a tick leave the position, the registers a CPU write sets and what the NMI output depends on. -/
theorem Ppu.render_keeps (cart : Cartridge) (line c : Nat) (p : Ppu) :
    let q := p.render cart line c
    q.tick = p.tick ∧ q.oddFrame = p.oddFrame ∧ q.ctrl = p.ctrl ∧ q.mask = p.mask ∧ q.vblank = p.vblank ∧
    q.suppress = p.suppress ∧ q.vblankDelayed = p.vblankDelayed ∧ q.nmiOut = p.nmiOut := by
  intro q
  have drawn : q = p ∨ q = (p.background cart line c).sprites cart line c ∨
      (∃ l x, q = p.outputPixel l x) ∨ ∃ l x, q = ((p.background cart line c).sprites cart line c).outputPixel l x := by
    simp only [q, Ppu.render]
    split_ifs
    · exact .inr (.inr (.inr ⟨_, _, rfl⟩))
    · exact .inr (.inr (.inl ⟨_, _, rfl⟩))
    · exact .inr (.inl rfl)
    · exact .inl rfl
  rw [Ppu.sprites_frame, Ppu.background_frame] at drawn
  rcases drawn with h | h | ⟨l, x, h⟩ | ⟨l, x, h⟩ <;> rw [h] <;> exact ⟨rfl, rfl, rfl, rfl, rfl, rfl, rfl, rfl⟩

/-- The rest of a tick touches the NMI line, the delayed VBlank, the tick and the frame parity only (rules R402, R419,
R420). -/
theorem ppuTick_frame (s : State) :
    let r := s.ppu.flagEvents.render s.cart s.ppu.scanline s.ppu.cycle
    (ppuTick s).ppu = { r with
      nmiOut := r.nmiLevel
      vblankDelayed := r.vblank
      tick := (ppuTick s).ppu.tick
      oddFrame := (ppuTick s).ppu.oddFrame } := by
  intro r
  have advanced : ∀ q : Ppu, q.advance = { q with tick := q.advance.tick, oddFrame := q.advance.oddFrame } := by
    intro q
    unfold Ppu.advance
    split_ifs <;> rfl
  simp only [ppuTick]
  rw [advanced]
  rfl

/-! ### The background -/

/-- One background shifter after the shift and the reload of a cycle, as a number (rule R422). -/
theorem shifter_eq (shifts reloads : Bool) (r : BitVec 16) (low : Byte) :
    (if reloads then ((if shifts then r <<< 1 else r).extractLsb' 8 8 : Byte) ++ low else if shifts then r <<< 1 else r) =
      BitVec.ofNat 16
        (if reloads then (if shifts then 2 * r.toNat % 65536 else r.toNat) / 256 * 256 + low.toNat
          else if shifts then 2 * r.toNat % 65536 else r.toNat) := by
  have shifted : (if shifts then r <<< 1 else r).toNat = if shifts then 2 * r.toNat % 65536 else r.toNat := by
    cases shifts
    · rfl
    · simp [Nat.shiftLeft_eq, Nat.mul_comm]
  have h := (if shifts then r <<< 1 else r).isLt
  have hl := low.isLt
  apply BitVec.eq_of_toNat_eq
  rw [← shifted]
  cases reloads
  · simp
  · simp only [if_true, BitVec.toNat_append, BitVec.extractLsb'_toNat, BitVec.toNat_ofNat, Nat.shiftRight_eq_div_pow]
    rw [← Nat.shiftLeft_add_eq_or_of_lt (by omega), Nat.shiftLeft_eq]
    omega

/-- One fetch step: the latch of its number from the address of rule R424, and every other one kept (rule R423). -/
theorem Ppu.fetchStep_values (cart : Cartridge) (k : Nat) (p : Ppu) :
    let q := p.fetchStep cart k
    q.bgLo = p.bgLo ∧ q.bgHi = p.bgHi ∧ q.atLo = p.atLo ∧ q.atHi = p.atHi ∧
    q.ntLatch = (if k = 0 then ppuRead cart p (ntAddr p.v) else p.ntLatch) ∧
    q.atLatch = (if k = 2 then atBits p.v (ppuRead cart p (atAddr p.v)) else p.atLatch) ∧
    q.ptLoLatch = (if k = 4 then ppuRead cart p (p.ptAddr p.ntLatch p.v) else p.ptLoLatch) ∧
    q.ptHiLatch = (if k = 6 then ppuRead cart p (p.ptAddr p.ntLatch p.v + 8) else p.ptHiLatch) := by
  intro q
  simp only [q, Ppu.fetchStep]
  split
  case h_6 h0 h2 h4 h6 _ =>
    rw [if_neg h0, if_neg h2, if_neg h4, if_neg h6]
    exact ⟨rfl, rfl, rfl, rfl, rfl, rfl, rfl, rfl⟩
  all_goals exact ⟨rfl, rfl, rfl, rfl, rfl, rfl, rfl, rfl⟩

/-- The four shifters and the four latches after the background steps (rules R422 to R424). -/
theorem Ppu.background_values (cart : Cartridge) (line c : Nat) (p : Ppu) :
    let q := p.background cart line c
    let shifter := fun (r : BitVec 16) (low : Byte) =>
      if reloadDue c then ((if shiftDue c then r <<< 1 else r).extractLsb' 8 8 : Byte) ++ low
      else if shiftDue c then r <<< 1 else r
    let fetches := fun k : Nat => fetchDue c = true ∧ (c - 1) % 8 = k
    q.bgLo = shifter p.bgLo p.ptLoLatch ∧ q.bgHi = shifter p.bgHi p.ptHiLatch ∧
    q.atLo = shifter p.atLo (spread (p.atLatch.getLsbD 0)) ∧ q.atHi = shifter p.atHi (spread (p.atLatch.getLsbD 1)) ∧
    q.ntLatch = (if fetches 0 then ppuRead cart p (ntAddr p.v) else p.ntLatch) ∧
    q.atLatch = (if fetches 2 then atBits p.v (ppuRead cart p (atAddr p.v)) else p.atLatch) ∧
    q.ptLoLatch = (if fetches 4 then ppuRead cart p (p.ptAddr p.ntLatch p.v) else p.ptLoLatch) ∧
    q.ptHiLatch = (if fetches 6 then ppuRead cart p (p.ptAddr p.ntLatch p.v + 8) else p.ptHiLatch) := by
  intro q shifter fetches
  have scrolled : ∀ r : Ppu, r.scrollEvents line c = { r with v := (r.scrollEvents line c).v } := by
    intro r
    unfold Ppu.scrollEvents
    split_ifs <;> rfl
  let moved := if reloadDue c then (if shiftDue c then p.shift else p).reload else if shiftDue c then p.shift else p
  have hm : moved = { p with
      bgLo := shifter p.bgLo p.ptLoLatch
      bgHi := shifter p.bgHi p.ptHiLatch
      atLo := shifter p.atLo (spread (p.atLatch.getLsbD 0))
      atHi := shifter p.atHi (spread (p.atLatch.getLsbD 1)) } := by
    simp only [moved, shifter]
    cases shiftDue c <;> cases reloadDue c <;> rfl
  have hq : q = (if fetchDue c then moved.fetchStep cart ((c - 1) % 8) else moved).scrollEvents line c := rfl
  rw [hq, scrolled]
  simp only [fetches]
  cases fetchDue c
  · simp [hm]
  · simp only [true_and, if_true]
    simpa [hm, ppuRead, Ppu.ptAddr] using moved.fetchStep_values cart ((c - 1) % 8)

/-! ### The sprites -/

theorem slotDue_eq_some {c : Nat} {k : Fin 8} : slotDue c = some k ↔ c = 264 + 8 * k.val := by
  have := k.isLt
  unfold slotDue
  split
  · rw [Option.some.injEq, Fin.ext_iff]
    dsimp only
    omega
  · simp only [reduceCtorEq, false_iff]
    omega

/-- What slot `k` holds after its fetch (rule R432). -/
theorem Ppu.fetchSlot_slots (cart : Cartridge) (line : Nat) (k : Fin 8) (p : Ppu) :
    p.fetchSlot cart line k = { p with
      slots := p.slots.set k.val
        (match p.sec[k.val]? with
        | some e => p.loadSlot cart line e
        | none => { p.slots[k.val] with lo := 0, hi := 0 }) } := by
  unfold Ppu.fetchSlot
  cases h : p.sec[k.val]? <;> rfl

/-- The buffer, the slots and their counts after the sprite steps (rules R430, R432). -/
theorem Ppu.sprites_values (cart : Cartridge) (line c : Nat) (p : Ppu) :
    let q := p.sprites cart line c
    q.sec = (if c = 257 then (if line < 240 then (p.inRangeSprites line).take 8 else []) else p.sec) ∧
    q.secHas0 = (if c = 257 then decide (line < 240) && (p.oamSprite 0).inRange line p.spriteHeight else p.secHas0) ∧
    q.spriteOverflow = (p.spriteOverflow ||
      (decide (line < 240 ∧ c = 257) && decide (8 < (p.inRangeSprites line).length))) ∧
    (∀ k : Fin 8, q.slots[k.val] =
      if c = 264 + 8 * k.val then
        (match p.sec[k.val]? with
        | some e => p.loadSlot cart line e
        | none => { p.slots[k.val] with lo := 0, hi := 0 })
      else p.slots[k.val]) ∧
    q.sprCount = (if c = 264 then p.sec.length else p.sprCount) ∧
    q.sprHas0 = (if c = 264 then p.secHas0 else p.sprHas0) := by
  intro q
  by_cases h257 : c = 257
  · subst h257
    have no : ∀ k : Fin 8, ¬ 257 = 264 + 8 * k.val := fun k => by omega
    simp only [q, Ppu.sprites, if_true, Ppu.evaluateSprites]
    split <;> rename_i hl <;> simp [hl, no]
  by_cases slot : ∃ j : Fin 8, c = 264 + 8 * j.val
  · obtain ⟨j, hj⟩ := slot
    have hq : q = (if c = 264 then { p.fetchSlot cart line j with sprCount := p.sec.length, sprHas0 := p.secHas0 }
        else p.fetchSlot cart line j) := by
      simp only [q, Ppu.sprites, if_neg h257, slotDue_eq_some.mpr hj]
    have hs : q.slots = (p.fetchSlot cart line j).slots := by
      rw [hq]
      split <;> rfl
    refine ⟨?_, ?_, ?_, fun k => ?_, ?_, ?_⟩
    · rw [hq, Ppu.fetchSlot_slots, if_neg h257]
      split <;> rfl
    · rw [hq, Ppu.fetchSlot_slots, if_neg h257]
      split <;> rfl
    · rw [hq, Ppu.fetchSlot_slots, show decide (line < 240 ∧ c = 257) = false by simp [h257]]
      split <;> simp
    · simp only [hs, Ppu.fetchSlot_slots, Vector.getElem_set]
      by_cases hk : j.val = k.val
      · obtain rfl := Fin.ext hk
        rw [if_pos rfl, if_pos hj]
      · rw [if_neg hk, if_neg (by omega)]
    · rw [hq, Ppu.fetchSlot_slots]
      split <;> rfl
    · rw [hq, Ppu.fetchSlot_slots]
      split <;> rfl
  · have no : ∀ k : Fin 8, ¬ c = 264 + 8 * k.val := fun k hk => slot ⟨k, hk⟩
    have no' : ¬ c = 264 := no 0
    have hq : q = p := by
      have : slotDue c = none := by
        cases h : slotDue c with
        | none => rfl
        | some k => exact absurd (slotDue_eq_some.mp h) (no k)
      simp only [q, Ppu.sprites, if_neg h257, this]
    simp [hq, no, no', h257]

/-! ### The pixel -/

/-- Bit `15 - n` of a shifter after the background steps of a visible cycle: the reload does not reach it, and every
cycle but the first has moved it up one place. -/
theorem shifter_bit {c n : Nat} (r : BitVec 16) (low : Byte) (hc : 1 ≤ c ∧ c ≤ 256) (hn : n < 8) :
    (if reloadDue c then ((if shiftDue c then r <<< 1 else r).extractLsb' 8 8 : Byte) ++ low
      else if shiftDue c then r <<< 1 else r).getLsbD (15 - n) = r.getLsbD (15 - n - (if c = 1 then 0 else 1)) := by
  have high : ∀ s : BitVec 16, ((s.extractLsb' 8 8 : Byte) ++ low).getLsbD (15 - n) = s.getLsbD (15 - n) := by
    intro s
    rw [BitVec.getLsbD_append, if_neg (by omega), BitVec.getLsbD_extractLsb']
    have : 8 + (15 - n - 8) = 15 - n := by omega
    rw [this, decide_eq_true (by omega), Bool.true_and]
  have shifted : (if shiftDue c then r <<< 1 else r).getLsbD (15 - n) =
      r.getLsbD (15 - n - (if c = 1 then 0 else 1)) := by
    by_cases h1 : c = 1
    · subst h1
      rfl
    · have : shiftDue c = true := by simp [shiftDue]; omega
      rw [this, if_pos rfl, if_neg h1, BitVec.getLsbD_shiftLeft]
      simp; omega
  split
  · rw [high, shifted]
  · exact shifted

theorem append_ofBool_toNat (a b : Bool) : (BitVec.ofBool a ++ BitVec.ofBool b : BitVec 2).toNat = 2 * a.toNat + b.toNat := by
  revert a b
  decide

/-- The background pixel after the background steps of a visible cycle, from the shifters before them (rule R429). -/
theorem bgPixelAt_eq (cart : Cartridge) (line : Nat) {c : Nat} (p : Ppu) (hc : 1 ≤ c ∧ c ≤ 256) :
    let bg := (p.background cart line c).bgPixel (c - 1)
    (bg.color.toNat, bg.pal.toNat) = bgPixelAt p c := by
  have hv := p.background_values cart line c
  have hx : (p.background cart line c).x = p.x := by rw [p.background_frame cart line c]
  have hm : (p.background cart line c).mask = p.mask := by rw [p.background_frame cart line c]
  have hn := p.x.isLt
  simp only [] at hv
  simp only [Ppu.bgPixel, bgPixelAt, hv, hx, hm, shifter_bit _ _ hc hn, bit]
  have h8 : 8 ≤ c - 1 ↔ 9 ≤ c := by omega
  simp only [h8, Bool.and_eq_true, Bool.or_eq_true, decide_eq_true_eq]
  split
  · rw [append_ofBool_toNat, append_ofBool_toNat]
  · rfl

theorem slotColorAt_eq (e : SpriteSlot) (x : Nat) : (e.color x).toNat = slotColorAt e x := by
  unfold SpriteSlot.color slotColorAt
  split
  · exact append_ofBool_toNat _ _
  · rfl

/-- The sprite pixel of the front slot (rule R433). -/
def slotPixel (p : Ppu) (c : Nat) (e : SpriteSlot × Nat) : SpritePixel :=
  ⟨e.1.color (c - 1), e.1.attr.extractLsb' 0 2, e.1.attr.getLsbD 5, decide (e.2 = 0) && p.sprHas0⟩

theorem firstOpaque_eq (p : Ppu) (c k : Nat) (l : List SpriteSlot) :
    firstOpaque (c - 1) p.sprHas0 k l =
      ((l.zipIdx k).find? fun e => decide (slotColorAt e.1 (c - 1) ≠ 0)).map (slotPixel p c) := by
  induction l generalizing k with
  | nil => rfl
  | cons e rest ih =>
    have h : (e.color (c - 1) ≠ 0) = (slotColorAt e (c - 1) ≠ 0) := by
      rw [← slotColorAt_eq, eq_iff_iff, ne_eq, ne_eq, ← BitVec.toNat_inj]
      rfl
    rw [firstOpaque, List.zipIdx_cons, List.find?_cons]
    by_cases ho : slotColorAt e (c - 1) ≠ 0
    · rw [if_pos (h ▸ ho), decide_eq_true ho]
      rfl
    · rw [if_neg (h ▸ ho), decide_eq_false ho, ih]

/-- The sprite pixel is the front slot's (rule R433). -/
theorem spritePixel_eq {c : Nat} (p : Ppu) (hc : 1 ≤ c) :
    p.spritePixel (c - 1) = ((frontSlotAt p c).map (slotPixel p c)).getD ⟨0, 0, false, false⟩ := by
  have h8 : 8 ≤ c - 1 ↔ 9 ≤ c := by omega
  unfold Ppu.spritePixel frontSlotAt
  simp only [bit, h8, Bool.and_eq_true, Bool.or_eq_true, decide_eq_true_eq]
  split
  · rw [firstOpaque_eq]
  · rfl

/-- The front slot is opaque where it is in front. -/
theorem frontSlotAt_opaque {p : Ppu} {c : Nat} {e : SpriteSlot × Nat} (h : frontSlotAt p c = some e) :
    slotColorAt e.1 (c - 1) ≠ 0 := by
  unfold frontSlotAt at h
  split at h
  · simpa using List.find?_some h
  · cases h

/-- The palette cell of the winning layer (rules R71, R434). -/
theorem palIndex_pixelAddr (bg : LayerPixel) (sp : SpritePixel) :
    palIndex (pixelAddr bg sp) =
      if sp.color.toNat = 0 ∨ (bg.color.toNat ≠ 0 ∧ sp.behind = true) then
        (if bg.color.toNat = 0 then 0 else 4 * bg.pal.toNat + bg.color.toNat)
      else 16 + 4 * sp.pal.toNat + sp.color.toNat := by
  obtain ⟨c, p⟩ := bg
  obtain ⟨c', p', b, z⟩ := sp
  have : ∀ (c p c' p' : BitVec 2) (b : Bool), palIndex (pixelAddr ⟨c, p⟩ ⟨c', p', b, false⟩) =
      if c'.toNat = 0 ∨ (c.toNat ≠ 0 ∧ b = true) then (if c.toNat = 0 then 0 else 4 * p.toNat + c.toNat)
      else 16 + 4 * p'.toNat + c'.toNat := by decide
  exact this c p c' p' b

/-- The sprite pixel as the three parts the winning layer depends on. -/
theorem slotPixel_parts (p : Ppu) (c : Nat) (e : SpriteSlot × Nat) :
    (slotPixel p c e).color.toNat = slotColorAt e.1 (c - 1) ∧ (slotPixel p c e).pal.toNat = e.1.attr.toNat % 4 ∧
    (slotPixel p c e).behind = e.1.attr.getLsbD 5 := by
  refine ⟨slotColorAt_eq _ _, ?_, rfl⟩
  simp [slotPixel]

/-- The colour a visible cycle outputs while rendering, after the background steps (rules R429, R433, R434). -/
theorem pixelAt_eq (cart : Cartridge) (line : Nat) {c : Nat} (p : Ppu) (hc : 1 ≤ c ∧ c ≤ 256)
    (hr : p.rendering = true) :
    let q := p.background cart line c
    q.pixelColor (q.bgPixel (c - 1)) (q.spritePixel (c - 1)) = pixelAt p c := by
  have hb := bgPixelAt_eq cart line p hc
  have hs : (p.background cart line c).spritePixel (c - 1) = p.spritePixel (c - 1) := by
    rw [p.background_frame cart line c]; rfl
  have hq : ∀ (bg : LayerPixel) (sp : SpritePixel), (p.background cart line c).pixelColor bg sp = p.pixelColor bg sp := by
    intro bg sp
    rw [p.background_frame cart line c]; rfl
  have grey : ∀ x : BitVec 6, x &&& 0x30 = BitVec.ofNat 6 (x.toNat / 16 * 16) := by decide
  intro q
  simp only [q, hs, hq]
  generalize (p.background cart line c).bgPixel (c - 1) = bg at hb
  simp only [Ppu.pixelColor, hr, if_true, palIndex_pixelAddr, pixelAt, ← hb, grey, bit, spritePixel_eq p hc.1]
  cases hf : frontSlotAt p c with
  | none => simp
  | some e =>
    have ho := frontSlotAt_opaque hf
    obtain ⟨h1, h2, h3⟩ := slotPixel_parts p c e
    simp only [Option.map_some, Option.getD_some, h1, h2, h3, ho, false_or]
    by_cases h0 : bg.color.toNat = 0 <;> cases e.1.attr.getLsbD 5 <;> simp [h0]

/-- Sprite-zero hit at a visible cycle, after the background steps (rule R436). -/
theorem hitAt_eq (cart : Cartridge) (line : Nat) {c : Nat} (p : Ppu) (hc : 1 ≤ c ∧ c ≤ 256) :
    let q := p.background cart line c
    q.hitsSprite0 (c - 1) (q.bgPixel (c - 1)) (q.spritePixel (c - 1)) = hitAt p c := by
  have hb := bgPixelAt_eq cart line p hc
  have hs : (p.background cart line c).spritePixel (c - 1) = p.spritePixel (c - 1) := by
    rw [p.background_frame cart line c]; rfl
  have hm : (p.background cart line c).mask = p.mask := by rw [p.background_frame cart line c]
  intro q
  simp only [q, hs]
  generalize (p.background cart line c).bgPixel (c - 1) = bg at hb
  have h255 : c - 1 ≠ 255 ↔ c ≠ 256 := by omega
  have zero : ∀ x : BitVec 2, x ≠ 0 ↔ x.toNat ≠ 0 := by decide
  simp only [Ppu.hitsSprite0, hm, hitAt, ← hb, bit, spritePixel_eq p hc.1, h255, zero]
  cases hf : frontSlotAt p c with
  | none => rfl
  | some e =>
    have ho := frontSlotAt_opaque hf
    obtain ⟨h1, -, -⟩ := slotPixel_parts p c e
    simp only [Option.map_some, Option.getD_some, h1, decide_eq_true ho, Bool.and_true]
    rfl

/-! ### The tick -/

/-- A tick while rendering: the flag events, then on a render line the background and the sprite steps, then at a visible
position the pixel and the hit, then the NMI output and the advance (rule R421). -/
theorem ppuTick_rendering (s : State) (hr : s.ppu.rendering = true) :
    let f := s.ppu.flagEvents
    let line := s.ppu.scanline
    let c := s.ppu.cycle
    let visible := line < 240 ∧ 1 ≤ c ∧ c ≤ 256
    let drawn := if renderLine line then (f.background s.cart line c).sprites s.cart line c else f
    (ppuTick s).ppu = { drawn with
      frame := if visible then s.ppu.frame.write (256 * line + (c - 1)) (pixelAt s.ppu c) else s.ppu.frame
      sprite0Hit := f.sprite0Hit || (decide visible && hitAt s.ppu c)
      nmiOut := f.nmiLevel
      vblankDelayed := f.vblank
      tick := (ppuTick s).ppu.tick
      oddFrame := (ppuTick s).ppu.oddFrame } := by
  intro f line c visible drawn
  have hf : f = _ := s.ppu.flagEvents_frame
  have hfr : f.rendering = true := by rw [hf]; exact hr
  have hpx : pixelAt s.ppu c = pixelAt f c := by rw [hf]; rfl
  have hht : hitAt s.ppu c = hitAt f c := by rw [hf]; rfl
  have hfm : f.frame = s.ppu.frame := by rw [hf]
  have hd : drawn = { drawn with
      frame := s.ppu.frame
      sprite0Hit := f.sprite0Hit
      ctrl := f.ctrl
      vblank := f.vblank
      vblankDelayed := f.vblankDelayed } := by
    simp only [drawn]
    split
    · rw [Ppu.sprites_frame, Ppu.background_frame, ← hfm]
    · rw [← hfm]
  have render : f.render s.cart line c = if visible then drawn.outputPixel line (c - 1) else drawn := by
    unfold Ppu.render
    simp only [drawn, hfr, Bool.true_and, visible]
  have frame := ppuTick_frame s
  change _ = ({ f.render s.cart line c with
    nmiOut := (f.render s.cart line c).nmiLevel
    vblankDelayed := (f.render s.cart line c).vblank
    tick := _
    oddFrame := _ } : Ppu) at frame
  rw [frame, render]
  by_cases hc : visible
  · have hl : renderLine line = true := by simp [renderLine, hc.1]
    have hs : drawn = f.background s.cart line c := by
      have : slotDue c = none := by
        unfold slotDue
        rw [dif_neg (by have := hc.2.2; omega)]
      simp only [drawn, hl, if_true, Ppu.sprites, if_neg (show ¬ c = 257 by have := hc.2.2; omega), this]
    have he := pixelAt_eq s.cart line f hc.2 hfr
    have hh := hitAt_eq s.cart line f hc.2
    simp only [if_pos hc, decide_eq_true hc, Bool.true_and, hpx, hht, ← he, ← hh, ← hs]
    rw [hd]
    rfl
  · simp only [if_neg hc, decide_eq_false hc, Bool.false_and, Bool.or_false]
    rw [hd]
    rfl

end Sys2Proof.Machine
end

