-- ==== Sys2Proof/Tests/Slice0.lean ====
section
/-! SUPPORT. The model's own tests: ill-formed terms and bytes that are refused, every opcode byte decoded, single steps
of the vectors of spec/95_test_vectors.md, and a witness for the hypotheses of every statement. Every expected value
is the spec's. -/

namespace Sys2Proof.Tests

open Sys2Proof Sys2Proof.Machine

/-! ### Ill-formed terms -/

theorem test_illformed_jam : (Instr.jam 0x03).wellFormed = false := by decide
theorem test_illformed_nopZp : (Instr.nopZp 0x05 0x00).wellFormed = false := by decide
theorem test_illformed_ancImm : (Instr.ancImm 0x4B 0x00).wellFormed = false := by decide
theorem test_illformed_nopZpX : (Instr.nopZpX 0x15 0x00).wellFormed = false := by decide
theorem test_illformed_nopImp : (Instr.nopImp 0xEA).wellFormed = false := by decide
theorem test_illformed_nopAbsX : (Instr.nopAbsX 0x9C 0x0000).wellFormed = false := by decide
theorem test_illformed_nopImm : (Instr.nopImm 0xA9 0x00).wellFormed = false := by decide

/-! ### Bytes that are no instruction -/

theorem test_reject_empty : decode [] = .rejected .noBytes := rfl
theorem test_reject_short2 : decode [0xA9] = .rejected (.truncated 0xA9) := rfl
theorem test_reject_short3 : decode [0x20, 0x34] = .rejected (.truncated 0x20) := rfl

/-! ### Every opcode byte -/

/-- Opcode bytes `$00` to `$0F`, each with the operand bytes `$34` and `$12` its length asks for, written from the
encoding column of rule R104. -/
theorem test_decode_row_0 :
    decode [0x00] = .ok .brk [] ∧
    decode [0x01, 0x34] = .ok (.oraIndX 0x34) [] ∧
    decode [0x02] = .ok (.jam 0x02) [] ∧
    decode [0x03, 0x34] = .ok (.sloIndX 0x34) [] ∧
    decode [0x04, 0x34] = .ok (.nopZp 0x04 0x34) [] ∧
    decode [0x05, 0x34] = .ok (.oraZp 0x34) [] ∧
    decode [0x06, 0x34] = .ok (.aslZp 0x34) [] ∧
    decode [0x07, 0x34] = .ok (.sloZp 0x34) [] ∧
    decode [0x08] = .ok .php [] ∧
    decode [0x09, 0x34] = .ok (.oraImm 0x34) [] ∧
    decode [0x0A] = .ok .aslAcc [] ∧
    decode [0x0B, 0x34] = .ok (.ancImm 0x0B 0x34) [] ∧
    decode [0x0C, 0x34, 0x12] = .ok (.nopAbs 0x1234) [] ∧
    decode [0x0D, 0x34, 0x12] = .ok (.oraAbs 0x1234) [] ∧
    decode [0x0E, 0x34, 0x12] = .ok (.aslAbs 0x1234) [] ∧
    decode [0x0F, 0x34, 0x12] = .ok (.sloAbs 0x1234) [] :=
  ⟨rfl, rfl, rfl, rfl, rfl, rfl, rfl, rfl, rfl, rfl, rfl, rfl, rfl, rfl, rfl, rfl⟩

/-- Opcode bytes `$10` to `$1F`, each with the operand bytes `$34` and `$12` its length asks for, written from the
encoding column of rule R104. -/
theorem test_decode_row_1 :
    decode [0x10, 0x34] = .ok (.bpl 0x34) [] ∧
    decode [0x11, 0x34] = .ok (.oraIndY 0x34) [] ∧
    decode [0x12] = .ok (.jam 0x12) [] ∧
    decode [0x13, 0x34] = .ok (.sloIndY 0x34) [] ∧
    decode [0x14, 0x34] = .ok (.nopZpX 0x14 0x34) [] ∧
    decode [0x15, 0x34] = .ok (.oraZpX 0x34) [] ∧
    decode [0x16, 0x34] = .ok (.aslZpX 0x34) [] ∧
    decode [0x17, 0x34] = .ok (.sloZpX 0x34) [] ∧
    decode [0x18] = .ok .clc [] ∧
    decode [0x19, 0x34, 0x12] = .ok (.oraAbsY 0x1234) [] ∧
    decode [0x1A] = .ok (.nopImp 0x1A) [] ∧
    decode [0x1B, 0x34, 0x12] = .ok (.sloAbsY 0x1234) [] ∧
    decode [0x1C, 0x34, 0x12] = .ok (.nopAbsX 0x1C 0x1234) [] ∧
    decode [0x1D, 0x34, 0x12] = .ok (.oraAbsX 0x1234) [] ∧
    decode [0x1E, 0x34, 0x12] = .ok (.aslAbsX 0x1234) [] ∧
    decode [0x1F, 0x34, 0x12] = .ok (.sloAbsX 0x1234) [] :=
  ⟨rfl, rfl, rfl, rfl, rfl, rfl, rfl, rfl, rfl, rfl, rfl, rfl, rfl, rfl, rfl, rfl⟩

/-- Opcode bytes `$20` to `$2F`, each with the operand bytes `$34` and `$12` its length asks for, written from the
encoding column of rule R104. -/
theorem test_decode_row_2 :
    decode [0x20, 0x34, 0x12] = .ok (.jsrAbs 0x1234) [] ∧
    decode [0x21, 0x34] = .ok (.andIndX 0x34) [] ∧
    decode [0x22] = .ok (.jam 0x22) [] ∧
    decode [0x23, 0x34] = .ok (.rlaIndX 0x34) [] ∧
    decode [0x24, 0x34] = .ok (.bitZp 0x34) [] ∧
    decode [0x25, 0x34] = .ok (.andZp 0x34) [] ∧
    decode [0x26, 0x34] = .ok (.rolZp 0x34) [] ∧
    decode [0x27, 0x34] = .ok (.rlaZp 0x34) [] ∧
    decode [0x28] = .ok .plp [] ∧
    decode [0x29, 0x34] = .ok (.andImm 0x34) [] ∧
    decode [0x2A] = .ok .rolAcc [] ∧
    decode [0x2B, 0x34] = .ok (.ancImm 0x2B 0x34) [] ∧
    decode [0x2C, 0x34, 0x12] = .ok (.bitAbs 0x1234) [] ∧
    decode [0x2D, 0x34, 0x12] = .ok (.andAbs 0x1234) [] ∧
    decode [0x2E, 0x34, 0x12] = .ok (.rolAbs 0x1234) [] ∧
    decode [0x2F, 0x34, 0x12] = .ok (.rlaAbs 0x1234) [] :=
  ⟨rfl, rfl, rfl, rfl, rfl, rfl, rfl, rfl, rfl, rfl, rfl, rfl, rfl, rfl, rfl, rfl⟩

/-- Opcode bytes `$30` to `$3F`, each with the operand bytes `$34` and `$12` its length asks for, written from the
encoding column of rule R104. -/
theorem test_decode_row_3 :
    decode [0x30, 0x34] = .ok (.bmi 0x34) [] ∧
    decode [0x31, 0x34] = .ok (.andIndY 0x34) [] ∧
    decode [0x32] = .ok (.jam 0x32) [] ∧
    decode [0x33, 0x34] = .ok (.rlaIndY 0x34) [] ∧
    decode [0x34, 0x34] = .ok (.nopZpX 0x34 0x34) [] ∧
    decode [0x35, 0x34] = .ok (.andZpX 0x34) [] ∧
    decode [0x36, 0x34] = .ok (.rolZpX 0x34) [] ∧
    decode [0x37, 0x34] = .ok (.rlaZpX 0x34) [] ∧
    decode [0x38] = .ok .sec [] ∧
    decode [0x39, 0x34, 0x12] = .ok (.andAbsY 0x1234) [] ∧
    decode [0x3A] = .ok (.nopImp 0x3A) [] ∧
    decode [0x3B, 0x34, 0x12] = .ok (.rlaAbsY 0x1234) [] ∧
    decode [0x3C, 0x34, 0x12] = .ok (.nopAbsX 0x3C 0x1234) [] ∧
    decode [0x3D, 0x34, 0x12] = .ok (.andAbsX 0x1234) [] ∧
    decode [0x3E, 0x34, 0x12] = .ok (.rolAbsX 0x1234) [] ∧
    decode [0x3F, 0x34, 0x12] = .ok (.rlaAbsX 0x1234) [] :=
  ⟨rfl, rfl, rfl, rfl, rfl, rfl, rfl, rfl, rfl, rfl, rfl, rfl, rfl, rfl, rfl, rfl⟩

/-- Opcode bytes `$40` to `$4F`, each with the operand bytes `$34` and `$12` its length asks for, written from the
encoding column of rule R104. -/
theorem test_decode_row_4 :
    decode [0x40] = .ok .rti [] ∧
    decode [0x41, 0x34] = .ok (.eorIndX 0x34) [] ∧
    decode [0x42] = .ok (.jam 0x42) [] ∧
    decode [0x43, 0x34] = .ok (.sreIndX 0x34) [] ∧
    decode [0x44, 0x34] = .ok (.nopZp 0x44 0x34) [] ∧
    decode [0x45, 0x34] = .ok (.eorZp 0x34) [] ∧
    decode [0x46, 0x34] = .ok (.lsrZp 0x34) [] ∧
    decode [0x47, 0x34] = .ok (.sreZp 0x34) [] ∧
    decode [0x48] = .ok .pha [] ∧
    decode [0x49, 0x34] = .ok (.eorImm 0x34) [] ∧
    decode [0x4A] = .ok .lsrAcc [] ∧
    decode [0x4B, 0x34] = .ok (.alrImm 0x34) [] ∧
    decode [0x4C, 0x34, 0x12] = .ok (.jmpAbs 0x1234) [] ∧
    decode [0x4D, 0x34, 0x12] = .ok (.eorAbs 0x1234) [] ∧
    decode [0x4E, 0x34, 0x12] = .ok (.lsrAbs 0x1234) [] ∧
    decode [0x4F, 0x34, 0x12] = .ok (.sreAbs 0x1234) [] :=
  ⟨rfl, rfl, rfl, rfl, rfl, rfl, rfl, rfl, rfl, rfl, rfl, rfl, rfl, rfl, rfl, rfl⟩

/-- Opcode bytes `$50` to `$5F`, each with the operand bytes `$34` and `$12` its length asks for, written from the
encoding column of rule R104. -/
theorem test_decode_row_5 :
    decode [0x50, 0x34] = .ok (.bvc 0x34) [] ∧
    decode [0x51, 0x34] = .ok (.eorIndY 0x34) [] ∧
    decode [0x52] = .ok (.jam 0x52) [] ∧
    decode [0x53, 0x34] = .ok (.sreIndY 0x34) [] ∧
    decode [0x54, 0x34] = .ok (.nopZpX 0x54 0x34) [] ∧
    decode [0x55, 0x34] = .ok (.eorZpX 0x34) [] ∧
    decode [0x56, 0x34] = .ok (.lsrZpX 0x34) [] ∧
    decode [0x57, 0x34] = .ok (.sreZpX 0x34) [] ∧
    decode [0x58] = .ok .cli [] ∧
    decode [0x59, 0x34, 0x12] = .ok (.eorAbsY 0x1234) [] ∧
    decode [0x5A] = .ok (.nopImp 0x5A) [] ∧
    decode [0x5B, 0x34, 0x12] = .ok (.sreAbsY 0x1234) [] ∧
    decode [0x5C, 0x34, 0x12] = .ok (.nopAbsX 0x5C 0x1234) [] ∧
    decode [0x5D, 0x34, 0x12] = .ok (.eorAbsX 0x1234) [] ∧
    decode [0x5E, 0x34, 0x12] = .ok (.lsrAbsX 0x1234) [] ∧
    decode [0x5F, 0x34, 0x12] = .ok (.sreAbsX 0x1234) [] :=
  ⟨rfl, rfl, rfl, rfl, rfl, rfl, rfl, rfl, rfl, rfl, rfl, rfl, rfl, rfl, rfl, rfl⟩

/-- Opcode bytes `$60` to `$6F`, each with the operand bytes `$34` and `$12` its length asks for, written from the
encoding column of rule R104. -/
theorem test_decode_row_6 :
    decode [0x60] = .ok .rts [] ∧
    decode [0x61, 0x34] = .ok (.adcIndX 0x34) [] ∧
    decode [0x62] = .ok (.jam 0x62) [] ∧
    decode [0x63, 0x34] = .ok (.rraIndX 0x34) [] ∧
    decode [0x64, 0x34] = .ok (.nopZp 0x64 0x34) [] ∧
    decode [0x65, 0x34] = .ok (.adcZp 0x34) [] ∧
    decode [0x66, 0x34] = .ok (.rorZp 0x34) [] ∧
    decode [0x67, 0x34] = .ok (.rraZp 0x34) [] ∧
    decode [0x68] = .ok .pla [] ∧
    decode [0x69, 0x34] = .ok (.adcImm 0x34) [] ∧
    decode [0x6A] = .ok .rorAcc [] ∧
    decode [0x6B, 0x34] = .ok (.arrImm 0x34) [] ∧
    decode [0x6C, 0x34, 0x12] = .ok (.jmpInd 0x1234) [] ∧
    decode [0x6D, 0x34, 0x12] = .ok (.adcAbs 0x1234) [] ∧
    decode [0x6E, 0x34, 0x12] = .ok (.rorAbs 0x1234) [] ∧
    decode [0x6F, 0x34, 0x12] = .ok (.rraAbs 0x1234) [] :=
  ⟨rfl, rfl, rfl, rfl, rfl, rfl, rfl, rfl, rfl, rfl, rfl, rfl, rfl, rfl, rfl, rfl⟩

/-- Opcode bytes `$70` to `$7F`, each with the operand bytes `$34` and `$12` its length asks for, written from the
encoding column of rule R104. -/
theorem test_decode_row_7 :
    decode [0x70, 0x34] = .ok (.bvs 0x34) [] ∧
    decode [0x71, 0x34] = .ok (.adcIndY 0x34) [] ∧
    decode [0x72] = .ok (.jam 0x72) [] ∧
    decode [0x73, 0x34] = .ok (.rraIndY 0x34) [] ∧
    decode [0x74, 0x34] = .ok (.nopZpX 0x74 0x34) [] ∧
    decode [0x75, 0x34] = .ok (.adcZpX 0x34) [] ∧
    decode [0x76, 0x34] = .ok (.rorZpX 0x34) [] ∧
    decode [0x77, 0x34] = .ok (.rraZpX 0x34) [] ∧
    decode [0x78] = .ok .sei [] ∧
    decode [0x79, 0x34, 0x12] = .ok (.adcAbsY 0x1234) [] ∧
    decode [0x7A] = .ok (.nopImp 0x7A) [] ∧
    decode [0x7B, 0x34, 0x12] = .ok (.rraAbsY 0x1234) [] ∧
    decode [0x7C, 0x34, 0x12] = .ok (.nopAbsX 0x7C 0x1234) [] ∧
    decode [0x7D, 0x34, 0x12] = .ok (.adcAbsX 0x1234) [] ∧
    decode [0x7E, 0x34, 0x12] = .ok (.rorAbsX 0x1234) [] ∧
    decode [0x7F, 0x34, 0x12] = .ok (.rraAbsX 0x1234) [] :=
  ⟨rfl, rfl, rfl, rfl, rfl, rfl, rfl, rfl, rfl, rfl, rfl, rfl, rfl, rfl, rfl, rfl⟩

/-- Opcode bytes `$80` to `$8F`, each with the operand bytes `$34` and `$12` its length asks for, written from the
encoding column of rule R104. -/
theorem test_decode_row_8 :
    decode [0x80, 0x34] = .ok (.nopImm 0x80 0x34) [] ∧
    decode [0x81, 0x34] = .ok (.staIndX 0x34) [] ∧
    decode [0x82, 0x34] = .ok (.nopImm 0x82 0x34) [] ∧
    decode [0x83, 0x34] = .ok (.saxIndX 0x34) [] ∧
    decode [0x84, 0x34] = .ok (.styZp 0x34) [] ∧
    decode [0x85, 0x34] = .ok (.staZp 0x34) [] ∧
    decode [0x86, 0x34] = .ok (.stxZp 0x34) [] ∧
    decode [0x87, 0x34] = .ok (.saxZp 0x34) [] ∧
    decode [0x88] = .ok .dey [] ∧
    decode [0x89, 0x34] = .ok (.nopImm 0x89 0x34) [] ∧
    decode [0x8A] = .ok .txa [] ∧
    decode [0x8B, 0x34] = .ok (.xaaImm 0x34) [] ∧
    decode [0x8C, 0x34, 0x12] = .ok (.styAbs 0x1234) [] ∧
    decode [0x8D, 0x34, 0x12] = .ok (.staAbs 0x1234) [] ∧
    decode [0x8E, 0x34, 0x12] = .ok (.stxAbs 0x1234) [] ∧
    decode [0x8F, 0x34, 0x12] = .ok (.saxAbs 0x1234) [] :=
  ⟨rfl, rfl, rfl, rfl, rfl, rfl, rfl, rfl, rfl, rfl, rfl, rfl, rfl, rfl, rfl, rfl⟩

/-- Opcode bytes `$90` to `$9F`, each with the operand bytes `$34` and `$12` its length asks for, written from the
encoding column of rule R104. -/
theorem test_decode_row_9 :
    decode [0x90, 0x34] = .ok (.bcc 0x34) [] ∧
    decode [0x91, 0x34] = .ok (.staIndY 0x34) [] ∧
    decode [0x92] = .ok (.jam 0x92) [] ∧
    decode [0x93, 0x34] = .ok (.ahxIndY 0x34) [] ∧
    decode [0x94, 0x34] = .ok (.styZpX 0x34) [] ∧
    decode [0x95, 0x34] = .ok (.staZpX 0x34) [] ∧
    decode [0x96, 0x34] = .ok (.stxZpY 0x34) [] ∧
    decode [0x97, 0x34] = .ok (.saxZpY 0x34) [] ∧
    decode [0x98] = .ok .tya [] ∧
    decode [0x99, 0x34, 0x12] = .ok (.staAbsY 0x1234) [] ∧
    decode [0x9A] = .ok .txs [] ∧
    decode [0x9B, 0x34, 0x12] = .ok (.tasAbsY 0x1234) [] ∧
    decode [0x9C, 0x34, 0x12] = .ok (.shyAbsX 0x1234) [] ∧
    decode [0x9D, 0x34, 0x12] = .ok (.staAbsX 0x1234) [] ∧
    decode [0x9E, 0x34, 0x12] = .ok (.shxAbsY 0x1234) [] ∧
    decode [0x9F, 0x34, 0x12] = .ok (.ahxAbsY 0x1234) [] :=
  ⟨rfl, rfl, rfl, rfl, rfl, rfl, rfl, rfl, rfl, rfl, rfl, rfl, rfl, rfl, rfl, rfl⟩

/-- Opcode bytes `$A0` to `$AF`, each with the operand bytes `$34` and `$12` its length asks for, written from the
encoding column of rule R104. -/
theorem test_decode_row_A :
    decode [0xA0, 0x34] = .ok (.ldyImm 0x34) [] ∧
    decode [0xA1, 0x34] = .ok (.ldaIndX 0x34) [] ∧
    decode [0xA2, 0x34] = .ok (.ldxImm 0x34) [] ∧
    decode [0xA3, 0x34] = .ok (.laxIndX 0x34) [] ∧
    decode [0xA4, 0x34] = .ok (.ldyZp 0x34) [] ∧
    decode [0xA5, 0x34] = .ok (.ldaZp 0x34) [] ∧
    decode [0xA6, 0x34] = .ok (.ldxZp 0x34) [] ∧
    decode [0xA7, 0x34] = .ok (.laxZp 0x34) [] ∧
    decode [0xA8] = .ok .tay [] ∧
    decode [0xA9, 0x34] = .ok (.ldaImm 0x34) [] ∧
    decode [0xAA] = .ok .tax [] ∧
    decode [0xAB, 0x34] = .ok (.lxaImm 0x34) [] ∧
    decode [0xAC, 0x34, 0x12] = .ok (.ldyAbs 0x1234) [] ∧
    decode [0xAD, 0x34, 0x12] = .ok (.ldaAbs 0x1234) [] ∧
    decode [0xAE, 0x34, 0x12] = .ok (.ldxAbs 0x1234) [] ∧
    decode [0xAF, 0x34, 0x12] = .ok (.laxAbs 0x1234) [] :=
  ⟨rfl, rfl, rfl, rfl, rfl, rfl, rfl, rfl, rfl, rfl, rfl, rfl, rfl, rfl, rfl, rfl⟩

/-- Opcode bytes `$B0` to `$BF`, each with the operand bytes `$34` and `$12` its length asks for, written from the
encoding column of rule R104. -/
theorem test_decode_row_B :
    decode [0xB0, 0x34] = .ok (.bcs 0x34) [] ∧
    decode [0xB1, 0x34] = .ok (.ldaIndY 0x34) [] ∧
    decode [0xB2] = .ok (.jam 0xB2) [] ∧
    decode [0xB3, 0x34] = .ok (.laxIndY 0x34) [] ∧
    decode [0xB4, 0x34] = .ok (.ldyZpX 0x34) [] ∧
    decode [0xB5, 0x34] = .ok (.ldaZpX 0x34) [] ∧
    decode [0xB6, 0x34] = .ok (.ldxZpY 0x34) [] ∧
    decode [0xB7, 0x34] = .ok (.laxZpY 0x34) [] ∧
    decode [0xB8] = .ok .clv [] ∧
    decode [0xB9, 0x34, 0x12] = .ok (.ldaAbsY 0x1234) [] ∧
    decode [0xBA] = .ok .tsx [] ∧
    decode [0xBB, 0x34, 0x12] = .ok (.lasAbsY 0x1234) [] ∧
    decode [0xBC, 0x34, 0x12] = .ok (.ldyAbsX 0x1234) [] ∧
    decode [0xBD, 0x34, 0x12] = .ok (.ldaAbsX 0x1234) [] ∧
    decode [0xBE, 0x34, 0x12] = .ok (.ldxAbsY 0x1234) [] ∧
    decode [0xBF, 0x34, 0x12] = .ok (.laxAbsY 0x1234) [] :=
  ⟨rfl, rfl, rfl, rfl, rfl, rfl, rfl, rfl, rfl, rfl, rfl, rfl, rfl, rfl, rfl, rfl⟩

/-- Opcode bytes `$C0` to `$CF`, each with the operand bytes `$34` and `$12` its length asks for, written from the
encoding column of rule R104. -/
theorem test_decode_row_C :
    decode [0xC0, 0x34] = .ok (.cpyImm 0x34) [] ∧
    decode [0xC1, 0x34] = .ok (.cmpIndX 0x34) [] ∧
    decode [0xC2, 0x34] = .ok (.nopImm 0xC2 0x34) [] ∧
    decode [0xC3, 0x34] = .ok (.dcpIndX 0x34) [] ∧
    decode [0xC4, 0x34] = .ok (.cpyZp 0x34) [] ∧
    decode [0xC5, 0x34] = .ok (.cmpZp 0x34) [] ∧
    decode [0xC6, 0x34] = .ok (.decZp 0x34) [] ∧
    decode [0xC7, 0x34] = .ok (.dcpZp 0x34) [] ∧
    decode [0xC8] = .ok .iny [] ∧
    decode [0xC9, 0x34] = .ok (.cmpImm 0x34) [] ∧
    decode [0xCA] = .ok .dex [] ∧
    decode [0xCB, 0x34] = .ok (.axsImm 0x34) [] ∧
    decode [0xCC, 0x34, 0x12] = .ok (.cpyAbs 0x1234) [] ∧
    decode [0xCD, 0x34, 0x12] = .ok (.cmpAbs 0x1234) [] ∧
    decode [0xCE, 0x34, 0x12] = .ok (.decAbs 0x1234) [] ∧
    decode [0xCF, 0x34, 0x12] = .ok (.dcpAbs 0x1234) [] :=
  ⟨rfl, rfl, rfl, rfl, rfl, rfl, rfl, rfl, rfl, rfl, rfl, rfl, rfl, rfl, rfl, rfl⟩

/-- Opcode bytes `$D0` to `$DF`, each with the operand bytes `$34` and `$12` its length asks for, written from the
encoding column of rule R104. -/
theorem test_decode_row_D :
    decode [0xD0, 0x34] = .ok (.bne 0x34) [] ∧
    decode [0xD1, 0x34] = .ok (.cmpIndY 0x34) [] ∧
    decode [0xD2] = .ok (.jam 0xD2) [] ∧
    decode [0xD3, 0x34] = .ok (.dcpIndY 0x34) [] ∧
    decode [0xD4, 0x34] = .ok (.nopZpX 0xD4 0x34) [] ∧
    decode [0xD5, 0x34] = .ok (.cmpZpX 0x34) [] ∧
    decode [0xD6, 0x34] = .ok (.decZpX 0x34) [] ∧
    decode [0xD7, 0x34] = .ok (.dcpZpX 0x34) [] ∧
    decode [0xD8] = .ok .cld [] ∧
    decode [0xD9, 0x34, 0x12] = .ok (.cmpAbsY 0x1234) [] ∧
    decode [0xDA] = .ok (.nopImp 0xDA) [] ∧
    decode [0xDB, 0x34, 0x12] = .ok (.dcpAbsY 0x1234) [] ∧
    decode [0xDC, 0x34, 0x12] = .ok (.nopAbsX 0xDC 0x1234) [] ∧
    decode [0xDD, 0x34, 0x12] = .ok (.cmpAbsX 0x1234) [] ∧
    decode [0xDE, 0x34, 0x12] = .ok (.decAbsX 0x1234) [] ∧
    decode [0xDF, 0x34, 0x12] = .ok (.dcpAbsX 0x1234) [] :=
  ⟨rfl, rfl, rfl, rfl, rfl, rfl, rfl, rfl, rfl, rfl, rfl, rfl, rfl, rfl, rfl, rfl⟩

/-- Opcode bytes `$E0` to `$EF`, each with the operand bytes `$34` and `$12` its length asks for, written from the
encoding column of rule R104. -/
theorem test_decode_row_E :
    decode [0xE0, 0x34] = .ok (.cpxImm 0x34) [] ∧
    decode [0xE1, 0x34] = .ok (.sbcIndX 0x34) [] ∧
    decode [0xE2, 0x34] = .ok (.nopImm 0xE2 0x34) [] ∧
    decode [0xE3, 0x34] = .ok (.isbIndX 0x34) [] ∧
    decode [0xE4, 0x34] = .ok (.cpxZp 0x34) [] ∧
    decode [0xE5, 0x34] = .ok (.sbcZp 0x34) [] ∧
    decode [0xE6, 0x34] = .ok (.incZp 0x34) [] ∧
    decode [0xE7, 0x34] = .ok (.isbZp 0x34) [] ∧
    decode [0xE8] = .ok .inx [] ∧
    decode [0xE9, 0x34] = .ok (.sbcImm 0x34) [] ∧
    decode [0xEA] = .ok .nop [] ∧
    decode [0xEB, 0x34] = .ok (.sbcImmEB 0x34) [] ∧
    decode [0xEC, 0x34, 0x12] = .ok (.cpxAbs 0x1234) [] ∧
    decode [0xED, 0x34, 0x12] = .ok (.sbcAbs 0x1234) [] ∧
    decode [0xEE, 0x34, 0x12] = .ok (.incAbs 0x1234) [] ∧
    decode [0xEF, 0x34, 0x12] = .ok (.isbAbs 0x1234) [] :=
  ⟨rfl, rfl, rfl, rfl, rfl, rfl, rfl, rfl, rfl, rfl, rfl, rfl, rfl, rfl, rfl, rfl⟩

/-- Opcode bytes `$F0` to `$FF`, each with the operand bytes `$34` and `$12` its length asks for, written from the
encoding column of rule R104. -/
theorem test_decode_row_F :
    decode [0xF0, 0x34] = .ok (.beq 0x34) [] ∧
    decode [0xF1, 0x34] = .ok (.sbcIndY 0x34) [] ∧
    decode [0xF2] = .ok (.jam 0xF2) [] ∧
    decode [0xF3, 0x34] = .ok (.isbIndY 0x34) [] ∧
    decode [0xF4, 0x34] = .ok (.nopZpX 0xF4 0x34) [] ∧
    decode [0xF5, 0x34] = .ok (.sbcZpX 0x34) [] ∧
    decode [0xF6, 0x34] = .ok (.incZpX 0x34) [] ∧
    decode [0xF7, 0x34] = .ok (.isbZpX 0x34) [] ∧
    decode [0xF8] = .ok .sed [] ∧
    decode [0xF9, 0x34, 0x12] = .ok (.sbcAbsY 0x1234) [] ∧
    decode [0xFA] = .ok (.nopImp 0xFA) [] ∧
    decode [0xFB, 0x34, 0x12] = .ok (.isbAbsY 0x1234) [] ∧
    decode [0xFC, 0x34, 0x12] = .ok (.nopAbsX 0xFC 0x1234) [] ∧
    decode [0xFD, 0x34, 0x12] = .ok (.sbcAbsX 0x1234) [] ∧
    decode [0xFE, 0x34, 0x12] = .ok (.incAbsX 0x1234) [] ∧
    decode [0xFF, 0x34, 0x12] = .ok (.isbAbsX 0x1234) [] :=
  ⟨rfl, rfl, rfl, rfl, rfl, rfl, rfl, rfl, rfl, rfl, rfl, rfl, rfl, rfl, rfl, rfl⟩

/-! ### States and memories that are not canonical -/

theorem test_illformed_order : Memory.wf 2048 [(2, 1#8), (1, 1#8)] = false := by decide
theorem test_illformed_zero : Memory.wf 2048 [(1, 0#8)] = false := by decide
theorem test_illformed_size : Memory.wf 2048 [(2048, 1#8)] = false := by decide
theorem test_illformed_cart : State.wf { State.reset with cart := { Cartridge.blank with prgPages := 0 } } = false := by
  decide
theorem test_illformed_shift : State.wf { State.reset with cart := { Cartridge.blank with shiftCount := 5 } } = false := by
  decide
theorem test_illformed_tick :
    State.wf { State.reset with ppu := { State.reset.ppu with tick := 89342 } } = false := by decide

/-! ### Images that are not cartridges (rule R81) -/

theorem test_image_short : loadCartridge [0x4E, 0x45, 0x53, 0x1A] false [] [] = .error (.invalidFormat "short read") := by
  decide
theorem test_image_tag :
    loadCartridge [0, 0x45, 0x53, 0x1A, 1, 0, 0, 0, 0, 0, 0, 0, 0, 0, 0, 0] false [] [] =
      .error (.invalidFormat "missing tag") := by decide
theorem test_image_trainer :
    loadCartridge [0x4E, 0x45, 0x53, 0x1A, 1, 0, 4, 0, 0, 0, 0, 0, 0, 0, 0, 0] false [] [] =
      .error (.unsupportedFormat "trainer present") := by decide
theorem test_image_mapper :
    loadCartridge [0x4E, 0x45, 0x53, 0x1A, 1, 0, 0x20, 0, 0, 0, 0, 0, 0, 0, 0, 0] false [] [] =
      .error (.unsupportedFormat "unrecognized mapper number") := by decide
theorem test_image_pages :
    loadCartridge [0x4E, 0x45, 0x53, 0x1A, 0, 0, 0, 0, 0, 0, 0, 0, 0, 0, 0, 0] false [] [] =
      .error (.invalidFormat "inconsistent page counts") := by decide

/-! ### Single steps -/

/-- A state at an instruction boundary with every register 0 (the conventions of spec/95_test_vectors.md). -/
def base : State := { State.reset with resetPending := false }

/-- `s` with bytes placed in RAM and PRG. -/
def placed (s : State) (cells : List (Addr × Byte)) : State := cells.foldl (fun s c => s.place c.1 c.2) s

/-- Whether one step of `s`, with `cells` placed, has a next state that passes `check`. -/
def stepped (s : State) (cells : List (Addr × Byte)) (check : State → Bool) : Bool :=
  match step (placed s cells) with
  | .next t => check t
  | .fault _ | .refused _ => false

/-- spec/95_test_vectors.md, "LDA zp,X wraps" (rule R140). -/
theorem test_lda_zp_x_wraps :
    stepped { base with x := 0x10, pc := 0x0200 }
      [(0x0200, 0xB5), (0x0201, 0xF5), (0x0005, 0x77)]
      (fun t => decide (t.a = 0x77 ∧ t.flags.pack false = 0x20 ∧ t.remaining + 1 = 4)) = true := by
  decide

/-- spec/95_test_vectors.md, "LDA (zp),Y crosses" (rule R140). -/
theorem test_lda_zp_y_crosses :
    stepped { base with y := 0x20, pc := 0x0200 }
      [(0x0200, 0xB1), (0x0201, 0x40), (0x0040, 0xF0), (0x0041, 0x12), (0x1310, 0x99)]
      (fun t => decide (t.a = 0x99 ∧ t.flags.pack false = 0xA0 ∧ t.remaining + 1 = 6)) = true := by
  decide

/-- spec/95_test_vectors.md, "LDX zp,Y wraps" (rule R141). -/
theorem test_ldx_zp_y_wraps :
    stepped { base with y := 0x02, pc := 0x0200 }
      [(0x0200, 0xB6), (0x0201, 0xFF), (0x0001, 0x81)]
      (fun t => decide (t.x = 0x81 ∧ t.flags.pack false = 0xA0 ∧ t.remaining + 1 = 4)) = true := by
  decide

/-- spec/95_test_vectors.md, "LDY abs,X crosses" (rule R142). -/
theorem test_ldy_abs_x_crosses :
    stepped { base with x := 0x01, pc := 0x0200 }
      [(0x0200, 0xBC), (0x0201, 0xFF), (0x0202, 0x02), (0x0300, 0x7F)]
      (fun t => decide (t.y = 0x7F ∧ t.flags.pack false = 0x20 ∧ t.remaining + 1 = 5)) = true := by
  decide

/-- spec/95_test_vectors.md, "STA abs,X no penalty" (rule R143). -/
theorem test_sta_abs_x_no_penalty :
    stepped { base with a := 0x5A, x := 0x20, pc := 0x0200 }
      [(0x0200, 0x9D), (0x0201, 0xF0), (0x0202, 0x02)]
      (fun t => decide (peek 0x0310 t = 0x5A ∧ t.remaining + 1 = 5)) = true := by
  decide

/-- spec/95_test_vectors.md, "STA leaves flags" (rule R143). -/
theorem test_sta_leaves_flags :
    stepped { base with a := 0x00, pc := 0x0200, flags := ⟨true, false, false, false, false, false⟩ }
      [(0x0200, 0x85), (0x0201, 0x10)]
      (fun t => decide (t.flags.pack false = 0xA0 ∧ peek 0x0010 t = 0x00 ∧ t.remaining + 1 = 3)) = true := by
  decide

/-- spec/95_test_vectors.md, "STX zp,Y wraps" (rule R144). -/
theorem test_stx_zp_y_wraps :
    stepped { base with x := 0x42, y := 0x01, pc := 0x0200 }
      [(0x0200, 0x96), (0x0201, 0xFF)]
      (fun t => decide (peek 0x0000 t = 0x42 ∧ t.remaining + 1 = 4)) = true := by
  decide

/-- spec/95_test_vectors.md, "STY zp,X wraps" (rule R145). -/
theorem test_sty_zp_x_wraps :
    stepped { base with x := 0x01, y := 0x07, pc := 0x0200 }
      [(0x0200, 0x94), (0x0201, 0xFF)]
      (fun t => decide (peek 0x0000 t = 0x07 ∧ t.remaining + 1 = 4)) = true := by
  decide

/-- spec/95_test_vectors.md, "TAX zero" (rule R146). -/
theorem test_tax_zero :
    stepped { base with a := 0x00, x := 0x33, pc := 0x0200 }
      [(0x0200, 0xAA)]
      (fun t => decide (t.x = 0x00 ∧ t.flags.pack false = 0x22 ∧ t.remaining + 1 = 2)) = true := by
  decide

/-- spec/95_test_vectors.md, "TSX" (rule R150). -/
theorem test_tsx :
    stepped { base with sp := 0xFD, pc := 0x0200 }
      [(0x0200, 0xBA)]
      (fun t => decide (t.x = 0xFD ∧ t.flags.pack false = 0xA0 ∧ t.remaining + 1 = 2)) = true := by
  decide

/-- spec/95_test_vectors.md, "TXS keeps flags" (rule R151). -/
theorem test_txs_keeps_flags :
    stepped { base with x := 0x00, pc := 0x0200, flags := ⟨true, false, false, false, false, false⟩ }
      [(0x0200, 0x9A)]
      (fun t => decide (t.sp = 0x00 ∧ t.flags.pack false = 0xA0 ∧ t.remaining + 1 = 2)) = true := by
  decide

/-- spec/95_test_vectors.md, "TYA negative" (rule R149). -/
theorem test_tya_negative :
    stepped { base with y := 0xC0, pc := 0x0200 }
      [(0x0200, 0x98)]
      (fun t => decide (t.a = 0xC0 ∧ t.flags.pack false = 0xA0 ∧ t.remaining + 1 = 2)) = true := by
  decide

/-- spec/95_test_vectors.md, "ADC $80+$80" (rule R163). -/
theorem test_adc_80_80 :
    stepped { base with a := 0x80, pc := 0x0200 }
      [(0x0200, 0x69), (0x0201, 0x80)]
      (fun t => decide (t.a = 0x00 ∧ t.flags.pack false = 0x63 ∧ t.remaining + 1 = 2)) = true := by
  decide

/-- spec/95_test_vectors.md, "ADC decimal ignored" (rule R163). -/
theorem test_adc_decimal_ignored :
    stepped { base with a := 0x09, pc := 0x0200, flags := ⟨false, false, true, false, false, false⟩ }
      [(0x0200, 0x69), (0x0201, 0x01)]
      (fun t => decide (t.a = 0x0A ∧ t.flags.pack false = 0x28 ∧ t.remaining + 1 = 2)) = true := by
  decide

/-- spec/95_test_vectors.md, "SBC borrow in" (rule R164). -/
theorem test_sbc_borrow_in :
    stepped { base with a := 0x05, pc := 0x0200 }
      [(0x0200, 0xE9), (0x0201, 0x03)]
      (fun t => decide (t.a = 0x01 ∧ t.flags.pack false = 0x21 ∧ t.remaining + 1 = 2)) = true := by
  decide

/-- spec/95_test_vectors.md, "SBC overflow" (rule R164). -/
theorem test_sbc_overflow :
    stepped { base with a := 0x80, pc := 0x0200, flags := ⟨false, false, false, false, false, true⟩ }
      [(0x0200, 0xE9), (0x0201, 0x01)]
      (fun t => decide (t.a = 0x7F ∧ t.flags.pack false = 0x61 ∧ t.remaining + 1 = 2)) = true := by
  decide

/-- spec/95_test_vectors.md, "AND zero" (rule R165). -/
theorem test_and_zero :
    stepped { base with a := 0xF0, pc := 0x0200 }
      [(0x0200, 0x29), (0x0201, 0x0F)]
      (fun t => decide (t.a = 0x00 ∧ t.flags.pack false = 0x22 ∧ t.remaining + 1 = 2)) = true := by
  decide

/-- spec/95_test_vectors.md, "ORA" (rule R166). -/
theorem test_ora :
    stepped { base with a := 0x01, pc := 0x0200 }
      [(0x0200, 0x09), (0x0201, 0x80)]
      (fun t => decide (t.a = 0x81 ∧ t.flags.pack false = 0xA0 ∧ t.remaining + 1 = 2)) = true := by
  decide

/-- spec/95_test_vectors.md, "EOR self-cancel" (rule R167). -/
theorem test_eor_self_cancel :
    stepped { base with a := 0xFF, pc := 0x0200 }
      [(0x0200, 0x49), (0x0201, 0xFF)]
      (fun t => decide (t.a = 0x00 ∧ t.flags.pack false = 0x22 ∧ t.remaining + 1 = 2)) = true := by
  decide

/-- spec/95_test_vectors.md, "BIT sets N V Z" (rule R168). -/
theorem test_bit_sets_n_v_z :
    stepped { base with a := 0x01, pc := 0x0200 }
      [(0x0200, 0x24), (0x0201, 0x10), (0x0010, 0xC0)]
      (fun t => decide (t.a = 0x01 ∧ t.flags.pack false = 0xE2 ∧ t.remaining + 1 = 3)) = true := by
  decide

/-- spec/95_test_vectors.md, "BIT clears N V" (rule R168). -/
theorem test_bit_clears_n_v :
    stepped { base with a := 0x01, pc := 0x0200, flags := ⟨true, true, false, false, false, false⟩ }
      [(0x0200, 0x2C), (0x0201, 0x10), (0x0202, 0x00), (0x0010, 0x01)]
      (fun t => decide (t.flags.pack false = 0x20 ∧ t.remaining + 1 = 4)) = true := by
  decide

/-- spec/95_test_vectors.md, "CMP equal" (rule R169). -/
theorem test_cmp_equal :
    stepped { base with a := 0x40, pc := 0x0200 }
      [(0x0200, 0xC9), (0x0201, 0x40)]
      (fun t => decide (t.flags.pack false = 0x23 ∧ t.remaining + 1 = 2)) = true := by
  decide

/-- spec/95_test_vectors.md, "CMP less" (rule R169). -/
theorem test_cmp_less :
    stepped { base with a := 0x40, pc := 0x0200 }
      [(0x0200, 0xC9), (0x0201, 0x41)]
      (fun t => decide (t.flags.pack false = 0xA0 ∧ t.remaining + 1 = 2)) = true := by
  decide

/-- spec/95_test_vectors.md, "CPX greater" (rule R170). -/
theorem test_cpx_greater :
    stepped { base with x := 0x20, pc := 0x0200 }
      [(0x0200, 0xE0), (0x0201, 0x10)]
      (fun t => decide (t.flags.pack false = 0x21 ∧ t.remaining + 1 = 2)) = true := by
  decide

/-- spec/95_test_vectors.md, "CPY zero vs $80" (rule R171). -/
theorem test_cpy_zero_vs_80 :
    stepped { base with y := 0x00, pc := 0x0200 }
      [(0x0200, 0xC0), (0x0201, 0x80)]
      (fun t => decide (t.flags.pack false = 0xA0 ∧ t.remaining + 1 = 2)) = true := by
  decide

/-- spec/95_test_vectors.md, "INC wraps" (rule R172). -/
theorem test_inc_wraps :
    stepped { base with pc := 0x0200 }
      [(0x0200, 0xE6), (0x0201, 0x10), (0x0010, 0xFF)]
      (fun t => decide (t.flags.pack false = 0x22 ∧ peek 0x0010 t = 0x00 ∧ t.remaining + 1 = 5)) = true := by
  decide

/-- spec/95_test_vectors.md, "DEC wraps" (rule R173). -/
theorem test_dec_wraps :
    stepped { base with pc := 0x0200 }
      [(0x0200, 0xC6), (0x0201, 0x10), (0x0010, 0x00)]
      (fun t => decide (t.flags.pack false = 0xA0 ∧ peek 0x0010 t = 0xFF ∧ t.remaining + 1 = 5)) = true := by
  decide

/-- spec/95_test_vectors.md, "INX wraps" (rule R174). -/
theorem test_inx_wraps :
    stepped { base with x := 0xFF, pc := 0x0200 }
      [(0x0200, 0xE8)]
      (fun t => decide (t.x = 0x00 ∧ t.flags.pack false = 0x22 ∧ t.remaining + 1 = 2)) = true := by
  decide

/-- spec/95_test_vectors.md, "INY" (rule R175). -/
theorem test_iny :
    stepped { base with y := 0x7F, pc := 0x0200 }
      [(0x0200, 0xC8)]
      (fun t => decide (t.y = 0x80 ∧ t.flags.pack false = 0xA0 ∧ t.remaining + 1 = 2)) = true := by
  decide

/-- spec/95_test_vectors.md, "DEX to zero" (rule R176). -/
theorem test_dex_to_zero :
    stepped { base with x := 0x01, pc := 0x0200 }
      [(0x0200, 0xCA)]
      (fun t => decide (t.x = 0x00 ∧ t.flags.pack false = 0x22 ∧ t.remaining + 1 = 2)) = true := by
  decide

/-- spec/95_test_vectors.md, "DEY wraps" (rule R177). -/
theorem test_dey_wraps :
    stepped { base with y := 0x00, pc := 0x0200 }
      [(0x0200, 0x88)]
      (fun t => decide (t.y = 0xFF ∧ t.flags.pack false = 0xA0 ∧ t.remaining + 1 = 2)) = true := by
  decide

/-- spec/95_test_vectors.md, "ASL A bit 7 out" (rule R191). -/
theorem test_asl_a_bit_7_out :
    stepped { base with a := 0x80, pc := 0x0200 }
      [(0x0200, 0x0A)]
      (fun t => decide (t.a = 0x00 ∧ t.flags.pack false = 0x23 ∧ t.remaining + 1 = 2)) = true := by
  decide

/-- spec/95_test_vectors.md, "LSR N always 0" (rule R192). -/
theorem test_lsr_n_always_0 :
    stepped { base with a := 0xFF, pc := 0x0200, flags := ⟨true, false, false, false, false, false⟩ }
      [(0x0200, 0x4A)]
      (fun t => decide (t.a = 0x7F ∧ t.flags.pack false = 0x21 ∧ t.remaining + 1 = 2)) = true := by
  decide

/-- spec/95_test_vectors.md, "ROL A carry in" (rule R193). -/
theorem test_rol_a_carry_in :
    stepped { base with a := 0x80, pc := 0x0200, flags := ⟨false, false, false, false, false, true⟩ }
      [(0x0200, 0x2A)]
      (fun t => decide (t.a = 0x01 ∧ t.flags.pack false = 0x21 ∧ t.remaining + 1 = 2)) = true := by
  decide

/-- spec/95_test_vectors.md, "ROR A carry in" (rule R194). -/
theorem test_ror_a_carry_in :
    stepped { base with a := 0x00, pc := 0x0200, flags := ⟨false, false, false, false, false, true⟩ }
      [(0x0200, 0x6A)]
      (fun t => decide (t.a = 0x80 ∧ t.flags.pack false = 0xA0 ∧ t.remaining + 1 = 2)) = true := by
  decide

/-- spec/95_test_vectors.md, "BEQ not taken" (rule R208). -/
theorem test_beq_not_taken :
    stepped { base with pc := 0x0200 }
      [(0x0200, 0xF0), (0x0201, 0x10)]
      (fun t => decide (t.pc = 0x0202 ∧ t.remaining + 1 = 2)) = true := by
  decide

/-- spec/95_test_vectors.md, "BNE back across page" (rule R207). -/
theorem test_bne_back_across_page :
    stepped { base with pc := 0x0200 }
      [(0x0200, 0xD0), (0x0201, 0x80)]
      (fun t => decide (t.pc = 0x0182 ∧ t.remaining + 1 = 4)) = true := by
  decide

/-- spec/95_test_vectors.md, "BCS at $02FE, PC_next on next page" (rule R206). -/
theorem test_bcs_at_02fe_pc_next_on_next_page :
    stepped { base with pc := 0x02FE, flags := ⟨false, false, false, false, false, true⟩ }
      [(0x02FE, 0xB0), (0x02FF, 0x00)]
      (fun t => decide (t.pc = 0x0300 ∧ t.remaining + 1 = 3)) = true := by
  decide

/-- spec/95_test_vectors.md, "BPL -2 self" (rule R201). -/
theorem test_bpl_2_self :
    stepped { base with pc := 0x0200 }
      [(0x0200, 0x10), (0x0201, 0xFE)]
      (fun t => decide (t.pc = 0x0200 ∧ t.remaining + 1 = 3)) = true := by
  decide

/-- spec/95_test_vectors.md, "BMI +$7F" (rule R202). -/
theorem test_bmi_7f :
    stepped { base with pc := 0x0200, flags := ⟨true, false, false, false, false, false⟩ }
      [(0x0200, 0x30), (0x0201, 0x7F)]
      (fun t => decide (t.pc = 0x0281 ∧ t.remaining + 1 = 3)) = true := by
  decide

/-- spec/95_test_vectors.md, "BVC -$80 from $0200" (rule R203). -/
theorem test_bvc_80_from_0200 :
    stepped { base with pc := 0x0200 }
      [(0x0200, 0x50), (0x0201, 0x80)]
      (fun t => decide (t.pc = 0x0182 ∧ t.remaining + 1 = 4)) = true := by
  decide

/-- spec/95_test_vectors.md, "JMP ind normal" (rule R210). -/
theorem test_jmp_ind_normal :
    stepped { base with pc := 0x0200 }
      [(0x0200, 0x6C), (0x0201, 0x00), (0x0202, 0x03), (0x0300, 0x78), (0x0301, 0x56)]
      (fun t => decide (t.pc = 0x5678 ∧ t.remaining + 1 = 5)) = true := by
  decide

/-- spec/95_test_vectors.md, "JMP ind page bug" (rule R210). -/
theorem test_jmp_ind_page_bug :
    stepped { base with pc := 0x0200 }
      [(0x0200, 0x6C), (0x0201, 0xFF), (0x0202, 0x03), (0x03FF, 0x34), (0x0300, 0x12), (0x0400, 0x56)]
      (fun t => decide (t.pc = 0x1234 ∧ t.remaining + 1 = 5)) = true := by
  decide

/-- spec/95_test_vectors.md, "JSR pushes PC_next-1" (rule R211). -/
theorem test_jsr_pushes_pc_next_1 :
    stepped { base with sp := 0xFD, pc := 0x0200 }
      [(0x0200, 0x20), (0x0201, 0x00), (0x0202, 0x06)]
      (fun t => decide (t.sp = 0xFB ∧ t.pc = 0x0600 ∧ peek 0x01FD t = 0x02 ∧ peek 0x01FC t = 0x02 ∧ t.remaining + 1 = 6)) = true := by
  decide

/-- spec/95_test_vectors.md, "JSR with SP=$00 wraps" (rule R211). -/
theorem test_jsr_with_sp_00_wraps :
    stepped { base with sp := 0x00, pc := 0x0200 }
      [(0x0200, 0x20), (0x0201, 0x00), (0x0202, 0x06)]
      (fun t => decide (t.sp = 0xFE ∧ peek 0x0100 t = 0x02 ∧ peek 0x01FF t = 0x02 ∧ t.remaining + 1 = 6)) = true := by
  decide

/-- spec/95_test_vectors.md, "RTS adds 1" (rule R212). -/
theorem test_rts_adds_1 :
    stepped { base with sp := 0xFB, pc := 0x0200 }
      [(0x0200, 0x60), (0x01FC, 0x02), (0x01FD, 0x06)]
      (fun t => decide (t.sp = 0xFD ∧ t.pc = 0x0603 ∧ t.remaining + 1 = 6)) = true := by
  decide

/-- spec/95_test_vectors.md, "RTS from $FFFF" (rule R212). -/
theorem test_rts_from_ffff :
    stepped { base with sp := 0xFB, pc := 0x0200 }
      [(0x0200, 0x60), (0x01FC, 0xFF), (0x01FD, 0xFF)]
      (fun t => decide (t.pc = 0x0000 ∧ t.remaining + 1 = 6)) = true := by
  decide

/-- spec/95_test_vectors.md, "RTI restores all" (rule R214). -/
theorem test_rti_restores_all :
    stepped { base with sp := 0xFA, pc := 0x0200 }
      [(0x0200, 0x40), (0x01FB, 0xFF), (0x01FC, 0x34), (0x01FD, 0x12)]
      (fun t => decide (t.sp = 0xFD ∧ t.pc = 0x1234 ∧ t.flags.pack false = 0xEF ∧ t.remaining + 1 = 6)) = true := by
  decide

/-- spec/95_test_vectors.md, "RTI ignores B U" (rule R214). -/
theorem test_rti_ignores_b_u :
    stepped { base with sp := 0xFA, pc := 0x0200 }
      [(0x0200, 0x40), (0x01FB, 0x30), (0x01FC, 0x00), (0x01FD, 0x03)]
      (fun t => decide (t.pc = 0x0300 ∧ t.flags.pack false = 0x20 ∧ t.remaining + 1 = 6)) = true := by
  decide

/-- spec/95_test_vectors.md, "BRK pushes BRK+2 and B=1" (rule R213). -/
theorem test_brk_pushes_brk_2_and_b_1 :
    stepped { base with sp := 0xFD, pc := 0x0200, flags := ⟨false, false, false, false, false, true⟩ }
      [(0x0200, 0x00), (0x0201, 0xEA), (0xFFFE, 0x00), (0xFFFF, 0x90)]
      (fun t => decide (t.sp = 0xFA ∧ t.pc = 0x9000 ∧ t.flags.pack false = 0x25 ∧ peek 0x01FD t = 0x02 ∧ peek 0x01FC t = 0x02 ∧ peek 0x01FB t = 0x31 ∧ t.remaining + 1 = 7)) = true := by
  decide

/-- spec/95_test_vectors.md, "PHA" (rule R220). -/
theorem test_pha :
    stepped { base with a := 0xAB, sp := 0xFD, pc := 0x0200 }
      [(0x0200, 0x48)]
      (fun t => decide (t.sp = 0xFC ∧ peek 0x01FD t = 0xAB ∧ t.remaining + 1 = 3)) = true := by
  decide

/-- spec/95_test_vectors.md, "PHA wraps SP" (rule R220). -/
theorem test_pha_wraps_sp :
    stepped { base with a := 0xAB, sp := 0x00, pc := 0x0200 }
      [(0x0200, 0x48)]
      (fun t => decide (t.sp = 0xFF ∧ peek 0x0100 t = 0xAB ∧ t.remaining + 1 = 3)) = true := by
  decide

/-- spec/95_test_vectors.md, "PHP B U set" (rule R221). -/
theorem test_php_b_u_set :
    stepped { base with sp := 0xFD, pc := 0x0200 }
      [(0x0200, 0x08)]
      (fun t => decide (t.sp = 0xFC ∧ peek 0x01FD t = 0x30 ∧ t.remaining + 1 = 3)) = true := by
  decide

/-- spec/95_test_vectors.md, "PHP all flags" (rule R221). -/
theorem test_php_all_flags :
    stepped { base with sp := 0xFD, pc := 0x0200, flags := ⟨true, true, true, true, true, true⟩ }
      [(0x0200, 0x08)]
      (fun t => decide (peek 0x01FD t = 0xFF ∧ t.remaining + 1 = 3)) = true := by
  decide

/-- spec/95_test_vectors.md, "PLA wraps SP" (rule R222). -/
theorem test_pla_wraps_sp :
    stepped { base with sp := 0xFF, pc := 0x0200 }
      [(0x0200, 0x68), (0x0100, 0x80)]
      (fun t => decide (t.a = 0x80 ∧ t.sp = 0x00 ∧ t.flags.pack false = 0xA0 ∧ t.remaining + 1 = 4)) = true := by
  decide

/-- spec/95_test_vectors.md, "PLP all ones" (rule R223). -/
theorem test_plp_all_ones :
    stepped { base with sp := 0xFC, pc := 0x0200 }
      [(0x0200, 0x28), (0x01FD, 0xFF)]
      (fun t => decide (t.sp = 0xFD ∧ t.flags.pack false = 0xEF ∧ t.remaining + 1 = 4)) = true := by
  decide

/-- spec/95_test_vectors.md, "PLP ignores bits 5,4" (rule R223). -/
theorem test_plp_ignores_bits_5_4 :
    stepped { base with sp := 0xFC, pc := 0x0200, flags := ⟨false, false, false, false, false, true⟩ }
      [(0x0200, 0x28), (0x01FD, 0x10)]
      (fun t => decide (t.flags.pack false = 0x20 ∧ t.remaining + 1 = 4)) = true := by
  decide

/-- spec/95_test_vectors.md, "CLC" (rule R224). -/
theorem test_clc :
    stepped { base with pc := 0x0200, flags := ⟨false, false, false, false, false, true⟩ }
      [(0x0200, 0x18)]
      (fun t => decide (t.flags.pack false = 0x20 ∧ t.remaining + 1 = 2)) = true := by
  decide

/-- spec/95_test_vectors.md, "SEC" (rule R225). -/
theorem test_sec :
    stepped { base with pc := 0x0200 }
      [(0x0200, 0x38)]
      (fun t => decide (t.flags.pack false = 0x21 ∧ t.remaining + 1 = 2)) = true := by
  decide

/-- spec/95_test_vectors.md, "CLI" (rule R226). -/
theorem test_cli :
    stepped { base with pc := 0x0200, flags := ⟨false, false, false, true, false, false⟩ }
      [(0x0200, 0x58)]
      (fun t => decide (t.flags.pack false = 0x20 ∧ t.remaining + 1 = 2)) = true := by
  decide

/-- spec/95_test_vectors.md, "SEI" (rule R227). -/
theorem test_sei :
    stepped { base with pc := 0x0200 }
      [(0x0200, 0x78)]
      (fun t => decide (t.flags.pack false = 0x24 ∧ t.remaining + 1 = 2)) = true := by
  decide

/-- spec/95_test_vectors.md, "CLD" (rule R228). -/
theorem test_cld :
    stepped { base with pc := 0x0200, flags := ⟨false, false, true, false, false, false⟩ }
      [(0x0200, 0xD8)]
      (fun t => decide (t.flags.pack false = 0x20 ∧ t.remaining + 1 = 2)) = true := by
  decide

/-- spec/95_test_vectors.md, "SED" (rule R229). -/
theorem test_sed :
    stepped { base with pc := 0x0200 }
      [(0x0200, 0xF8)]
      (fun t => decide (t.flags.pack false = 0x28 ∧ t.remaining + 1 = 2)) = true := by
  decide

/-- spec/95_test_vectors.md, "CLV" (rule R230). -/
theorem test_clv :
    stepped { base with pc := 0x0200, flags := ⟨false, true, false, false, false, false⟩ }
      [(0x0200, 0xB8)]
      (fun t => decide (t.flags.pack false = 0x20 ∧ t.remaining + 1 = 2)) = true := by
  decide

/-- spec/95_test_vectors.md, "NOP implied $1A" (rule R241). -/
theorem test_nop_implied_1a :
    stepped { base with pc := 0x0200 }
      [(0x0200, 0x1A)]
      (fun t => decide (t.pc = 0x0201 ∧ t.remaining + 1 = 2)) = true := by
  decide

/-- spec/95_test_vectors.md, "NOP abs,X crosses" (rule R243). -/
theorem test_nop_abs_x_crosses :
    stepped { base with x := 0x20, pc := 0x0200 }
      [(0x0200, 0xFC), (0x0201, 0xF0), (0x0202, 0x12)]
      (fun t => decide (t.pc = 0x0203 ∧ t.remaining + 1 = 5)) = true := by
  decide

/-- spec/95_test_vectors.md, "LAX (zp),Y crosses" (rule R244). -/
theorem test_lax_zp_y_crosses :
    stepped { base with y := 0x20, pc := 0x0200 }
      [(0x0200, 0xB3), (0x0201, 0x40), (0x0040, 0xF0), (0x0041, 0x02), (0x0310, 0x00)]
      (fun t => decide (t.a = 0x00 ∧ t.x = 0x00 ∧ t.flags.pack false = 0x22 ∧ t.remaining + 1 = 6)) = true := by
  decide

/-- spec/95_test_vectors.md, "LAX zp,Y" (rule R244). -/
theorem test_lax_zp_y :
    stepped { base with y := 0x02, pc := 0x0200 }
      [(0x0200, 0xB7), (0x0201, 0xFF), (0x0001, 0x90)]
      (fun t => decide (t.a = 0x90 ∧ t.x = 0x90 ∧ t.flags.pack false = 0xA0 ∧ t.remaining + 1 = 4)) = true := by
  decide

/-- spec/95_test_vectors.md, "SAX zp,Y wraps" (rule R245). -/
theorem test_sax_zp_y_wraps :
    stepped { base with a := 0xF0, x := 0x3C, y := 0x11, pc := 0x0200 }
      [(0x0200, 0x97), (0x0201, 0xFF)]
      (fun t => decide (t.flags.pack false = 0x20 ∧ peek 0x0010 t = 0x30 ∧ t.remaining + 1 = 4)) = true := by
  decide

/-- spec/95_test_vectors.md, "SBC $EB" (rule R246). -/
theorem test_sbc_eb :
    stepped { base with a := 0x80, pc := 0x0200, flags := ⟨false, false, false, false, false, true⟩ }
      [(0x0200, 0xEB), (0x0201, 0x01)]
      (fun t => decide (t.a = 0x7F ∧ t.flags.pack false = 0x61 ∧ t.remaining + 1 = 2)) = true := by
  decide

/-- spec/95_test_vectors.md, "SLO abs,Y" (rule R247). -/
theorem test_slo_abs_y :
    stepped { base with a := 0x00, y := 0x01, pc := 0x0200 }
      [(0x0200, 0x1B), (0x0201, 0xFF), (0x0202, 0x02), (0x0300, 0x80)]
      (fun t => decide (t.a = 0x00 ∧ t.flags.pack false = 0x23 ∧ peek 0x0300 t = 0x00 ∧ t.remaining + 1 = 7)) = true := by
  decide

/-- spec/95_test_vectors.md, "RLA zp,X" (rule R248). -/
theorem test_rla_zp_x :
    stepped { base with a := 0x0F, x := 0x01, pc := 0x0200, flags := ⟨false, false, false, false, false, true⟩ }
      [(0x0200, 0x37), (0x0201, 0x0F), (0x0010, 0x07)]
      (fun t => decide (t.a = 0x0F ∧ t.flags.pack false = 0x20 ∧ peek 0x0010 t = 0x0F ∧ t.remaining + 1 = 6)) = true := by
  decide

/-- spec/95_test_vectors.md, "SRE (zp,X)" (rule R249). -/
theorem test_sre_zp_x :
    stepped { base with a := 0x01, x := 0x00, pc := 0x0200 }
      [(0x0200, 0x43), (0x0201, 0x20), (0x0020, 0x00), (0x0021, 0x03), (0x0300, 0x02)]
      (fun t => decide (t.a = 0x00 ∧ t.flags.pack false = 0x22 ∧ peek 0x0300 t = 0x01 ∧ t.remaining + 1 = 8)) = true := by
  decide

/-- spec/95_test_vectors.md, "RRA overflow" (rule R250). -/
theorem test_rra_overflow :
    stepped { base with a := 0x7F, pc := 0x0200, flags := ⟨false, false, false, false, false, true⟩ }
      [(0x0200, 0x6F), (0x0201, 0x00), (0x0202, 0x03), (0x0300, 0x00)]
      (fun t => decide (t.a = 0xFF ∧ t.flags.pack false = 0xA0 ∧ peek 0x0300 t = 0x80 ∧ t.remaining + 1 = 6)) = true := by
  decide

/-- spec/95_test_vectors.md, "DCP wraps $00" (rule R251). -/
theorem test_dcp_wraps_00 :
    stepped { base with a := 0xFF, pc := 0x0200 }
      [(0x0200, 0xCF), (0x0201, 0x00), (0x0202, 0x03), (0x0300, 0x00)]
      (fun t => decide (t.a = 0xFF ∧ t.flags.pack false = 0x23 ∧ peek 0x0300 t = 0xFF ∧ t.remaining + 1 = 6)) = true := by
  decide

/-- spec/95_test_vectors.md, "ISB wraps $FF" (rule R252). -/
theorem test_isb_wraps_ff :
    stepped { base with a := 0x05, pc := 0x0200, flags := ⟨false, false, false, false, false, true⟩ }
      [(0x0200, 0xEF), (0x0201, 0x00), (0x0202, 0x03), (0x0300, 0xFF)]
      (fun t => decide (t.a = 0x05 ∧ t.flags.pack false = 0x21 ∧ peek 0x0300 t = 0x00 ∧ t.remaining + 1 = 6)) = true := by
  decide

/-- spec/95_test_vectors.md, "ANC $2B clears C" (rule R253). -/
theorem test_anc_2b_clears_c :
    stepped { base with a := 0xFF, pc := 0x0200, flags := ⟨false, false, false, false, false, true⟩ }
      [(0x0200, 0x2B), (0x0201, 0x7F)]
      (fun t => decide (t.a = 0x7F ∧ t.flags.pack false = 0x20 ∧ t.remaining + 1 = 2)) = true := by
  decide

/-- spec/95_test_vectors.md, "ALR" (rule R254). -/
theorem test_alr :
    stepped { base with a := 0xFF, pc := 0x0200 }
      [(0x0200, 0x4B), (0x0201, 0xFE)]
      (fun t => decide (t.a = 0x7F ∧ t.flags.pack false = 0x20 ∧ t.remaining + 1 = 2)) = true := by
  decide

/-- spec/95_test_vectors.md, "ARR C=0 V=1" (rule R255). -/
theorem test_arr_c_0_v_1 :
    stepped { base with a := 0xFF, pc := 0x0200 }
      [(0x0200, 0x6B), (0x0201, 0x80)]
      (fun t => decide (t.a = 0x40 ∧ t.flags.pack false = 0x61 ∧ t.remaining + 1 = 2)) = true := by
  decide

/-- spec/95_test_vectors.md, "ARR C=1 V=1" (rule R255). -/
theorem test_arr_c_1_v_1 :
    stepped { base with a := 0xFF, pc := 0x0200, flags := ⟨false, false, false, false, false, true⟩ }
      [(0x0200, 0x6B), (0x0201, 0x80)]
      (fun t => decide (t.a = 0xC0 ∧ t.flags.pack false = 0xE1 ∧ t.remaining + 1 = 2)) = true := by
  decide

/-- spec/95_test_vectors.md, "AXS equal" (rule R256). -/
theorem test_axs_equal :
    stepped { base with a := 0x0F, x := 0x0C, pc := 0x0200 }
      [(0x0200, 0xCB), (0x0201, 0x0C)]
      (fun t => decide (t.x = 0x00 ∧ t.flags.pack false = 0x23 ∧ t.remaining + 1 = 2)) = true := by
  decide


/-! ### The machine around the instructions -/

/-- Whether one step of a state has a next state that passes `check`. -/
def after (s : State) (check : State → Bool) : Bool :=
  match step s with
  | .next t => check t
  | .fault _ | .refused _ => false

/-- A state about to run the instruction at `$0300` with SP = `$FD`, cells placed. -/
def at0300 (cells : List (Addr × Byte)) : State := placed { base with pc := 0x0300, sp := 0xFD } cells

/-- "Reset keeps A X Y and flags but I". -/
theorem test_reset_sequence :
    after (placed { base with
        pc := 0x0300, sp := 0x40, a := 1, x := 2, y := 3, flags := ⟨false, false, true, false, false, true⟩
        resetPending := true } [(0xFFFC, 0x34), (0xFFFD, 0x92)])
      (fun t => decide (t.pc = 0x9234 ∧ t.sp = 0x3D ∧ t.a = 1 ∧ t.x = 2 ∧ t.y = 3 ∧ t.flags.pack false = 0x2D ∧
        t.remaining + 1 = 7 ∧ t.resetPending = false)) = true := by decide

/-- "NMI entry". -/
theorem test_nmi_entry :
    after { at0300 [(0xFFFA, 0x00), (0xFFFB, 0x88)] with
        flags := ⟨false, false, false, false, false, true⟩, nmiPending := true }
      (fun t => decide (peek 0x01FD t = 0x03 ∧ peek 0x01FC t = 0x00 ∧ peek 0x01FB t = 0x21 ∧ t.sp = 0xFA ∧
        t.flags.pack false = 0x25 ∧ t.pc = 0x8800 ∧ t.nmiPending = false ∧ t.remaining + 1 = 7)) = true := by decide

/-- "IRQ taken". -/
theorem test_irq_taken :
    after { at0300 [(0xFFFE, 0x00), (0xFFFF, 0x90)] with
        flags := ⟨true, false, false, false, false, false⟩, irqLine := true }
      (fun t => decide (peek 0x01FD t = 0x03 ∧ peek 0x01FC t = 0x00 ∧ peek 0x01FB t = 0xA0 ∧ t.sp = 0xFA ∧
        t.flags.pack false = 0xA4 ∧ t.pc = 0x9000 ∧ t.remaining + 1 = 7)) = true := by decide

/-- "IRQ masked": the NOP runs. -/
theorem test_irq_masked :
    after { at0300 [(0x0300, 0xEA)] with flags := ⟨false, false, false, true, false, false⟩, irqLine := true }
      (fun t => decide (t.pc = 0x0301 ∧ t.remaining + 1 = 2)) = true := by decide

/-- "JAM ignores NMI": a halted boundary services nothing. -/
theorem test_jam_ignores_nmi :
    after { at0300 [] with halted := true, nmiPending := true }
      (fun t => decide (t.halted = true ∧ t.nmiPending = true ∧ t.pc = 0x0300 ∧ t.cycles = 1)) = true := by decide

theorem test_jam_halts :
    after (at0300 [(0x0300, 0x02)]) (fun t => decide (t.halted = true ∧ t.pc = 0x0301 ∧ t.cycles = 1)) = true := by
  decide

/-- "Refused opcodes": the mark, with PC past the instruction and no cycle counted. -/
theorem test_unstable_refused :
    after (at0300 [(0x0300, 0x8B), (0x0301, 0x55)])
      (fun t => decide (t.refused = true ∧ t.pc = 0x0302 ∧ t.a = 0 ∧ t.cycles = 0)) = true := by decide

/-- "RAM mirrors". -/
theorem test_ram_mirrors :
    let t := memWrite 0x1801 0xAA base
    [peek 0x0001 t, peek 0x0801 t, peek 0x1001 t, peek 0x1801 t] = [0xAA, 0xAA, 0xAA, 0xAA] := by decide

/-- "DMA stall, odd" and "DMA stall, even". -/
theorem test_dma_stall : dmaStall 7 4 0x4014 = 514 ∧ dmaStall 8 4 0x4014 = 513 ∧ dmaStall 10 5 0x4014 = 514 := by decide

/-- "OAM DMA copy": one byte of the copy wraps past the end of OAM. -/
theorem test_dma_wraps :
    (dmaByte 0x03 { base with ram := [(0x3FC, 0xFC)], ppu := { base.ppu with oamAddr := 0x04 } } 0xFC).ppu.oam =
      [(0x00, 0xFC)] := by decide

/-- "mapper 0, one PRG page", and the worked example S9. -/
theorem test_mapper0 :
    Cartridge.translateCpu { Cartridge.blank with prgPages := 1 } 0xC123 = (0, 0x123) ∧
    [Cartridge.blank.translateCpu 0xC000, Cartridge.blank.translateCpu 0xFFFF, Cartridge.blank.translateCpu 0xC123] =
      [(1, 0), (1, 0x3FFF), (1, 0x123)] := by decide

/-- The serial-register cartridge of section 3.3: eight PRG pages, CHR RAM. -/
def serial8 : Cartridge := { Cartridge.blank with mapper := .serial, prgPages := 8, chrPages := 0 }

/-- CPU writes to a cartridge, in order. -/
def writes (c : Cartridge) (l : List (Addr × Byte)) : Cartridge := l.foldl (fun c w => c.setCpuAt w.1 w.2) c

theorem test_serial_power_on : (serial8.translateCpu 0x8000).1 = 0 ∧ (serial8.translateCpu 0xC000).1 = 7 := by decide

/-- "load the PRG register". -/
theorem test_serial_prg :
    let c := writes serial8 [(0xE000, 1), (0xE000, 0), (0xE000, 0), (0xE000, 0), (0xE000, 0)]
    c.prgBank = 1 ∧ (c.translateCpu 0x8000).1 = 1 ∧ (c.translateCpu 0xC000).1 = 7 := by decide

/-- "load the control register". -/
theorem test_serial_control :
    let c := writes { serial8 with prgBank := 1 } [(0x8000, 0), (0x8000, 1), (0x8000, 0), (0x8000, 0), (0x8000, 0)]
    c.control = 0b00010 ∧ c.mirroring = .vertical ∧ (c.translateCpu 0x8000).1 = 0 ∧ (c.translateCpu 0xC000).1 = 1 := by
  decide

/-- "reset bit". -/
theorem test_serial_reset_bit :
    writes { serial8 with control := 0 } [(0x8000, 1), (0x8000, 1), (0x8000, 0x80)] = { serial8 with control := 0x0C } := by
  decide

/-- "register chosen by the fifth write". -/
theorem test_serial_fifth_address :
    writes serial8 [(0x8000, 1), (0xA000, 0), (0xC000, 0), (0xE000, 0), (0xA000, 0)] = { serial8 with chrBank0 := 1 } := by
  decide

/-- "first Scroll write", "second Scroll write", "first Address write" and "second Address write", one after another
from the Control write `$2000 <- $03`. -/
theorem test_scroll_address_writes :
    let s1 := memWrite 0x2005 0x7D (memWrite 0x2000 0x03 base)
    let s2 := memWrite 0x2005 0x5E s1
    let s3 := memWrite 0x2006 0x3D s2
    let s4 := memWrite 0x2006 0xF0 s3
    s1.ppu.t = 0x0C0F ∧ s1.ppu.x = 5 ∧ s1.ppu.w = true ∧ s2.ppu.t = 0x6D6F ∧ s2.ppu.w = false ∧
    s3.ppu.t = 0x3D6F ∧ s3.ppu.w = true ∧ s4.ppu.t = 0x3DF0 ∧ s4.ppu.v = 0x3DF0 ∧ s4.ppu.w = false := by decide

/-- "Control to t". -/
theorem test_control_write : (memWrite 0x2000 0x03 base).ppu.t = 0x0C00 ∧ (memWrite 0x2000 0x03 base).ppu.ctrl = 0x03 := by
  decide

/-- "buffered Data read". -/
theorem test_data_read :
    let s := { base with ppu := { base.ppu with v := 0x2000, ntRam := [(0, 0xAB), (1, 0xCD)] } }
    let r := memRead 0x2007 s
    let q := memRead 0x2007 r.2
    r.1 = 0x00 ∧ q.1 = 0xAB ∧ q.2.ppu.readBuffer = 0xCD ∧ q.2.ppu.v = 0x2002 := by decide

/-- "palette Data read". -/
theorem test_palette_read :
    let s := { base with ppu := { base.ppu with v := 0x3F01, pal := [(1, 0x21)], ntRam := [(0x701, 0x77)] } }
    let r := memRead 0x2007 { s with params := { s.params with ppuOpenBus := .latch } }
    r.1 &&& 0x3F = 0x21 ∧ r.2.ppu.readBuffer = 0x77 ∧ r.2.ppu.v = 0x3F02 := by decide

/-- "palette mirror" and "palette 6 bits". -/
theorem test_palette_writes :
    (ppuWrite 0x3F10 0x2A base).ppu.pal = [(0, 0x2A)] ∧ (ppuWrite 0x3F01 0xFF base).ppu.pal = [(1, 0x3F)] ∧
    palIndex 0x3F04 = 0 ∧ palIndex 0x3F14 = 0 ∧ palIndex 0x3F31 = 17 := by decide

/-- "horizontal mirroring" and "vertical mirroring". -/
theorem test_mirroring :
    nametableAddress .horizontal 0x2400 = 0 ∧ nametableAddress .horizontal 0x2800 = 0x400 ∧
    nametableAddress .vertical 0x2800 = 0 ∧ nametableAddress .vertical 0x2400 = 0x400 := by decide

/-- "Status value". -/
theorem test_status :
    let s := { base with
      params := ⟨.latch, .refuse⟩, ppu := { base.ppu with vblank := true, sprite0Hit := true, ioLatch := 0x1F } }
    (memRead 0x2002 s).1 = 0xDF ∧ (memRead 0x2002 s).2.ppu.vblank = false := by decide

/-- "OAM data". -/
theorem test_oam_data :
    let s := memWrite 0x2004 0x12 { base with ppu := { base.ppu with oamAddr := 0xFF, oam := [(0, 0x77)] } }
    s.ppu.oam = [(0, 0x77), (0xFF, 0x12)] ∧ s.ppu.oamAddr = 0 ∧ (memRead 0x2004 s).1 = 0x77 := by decide

/-- "fine-Y increment", "coarse-Y 31 wrap" and "coarse-X wrap". -/
theorem test_scroll_increments :
    incY (0x7000 ||| (29 <<< 5)) = 0x0800 ∧ incY (0x7000 ||| (31 <<< 5)) = 0 ∧ incCoarseX 31 = 0x0400 := by decide

/-- "attribute address". -/
theorem test_attribute : atAddr 0x0043 = 0x23C0 ∧ atBits 0x0043 0b11000000 = 3 := by decide

/-- The worked example S7: a Status read at tick 82182 suppresses VBlank, one tick earlier or later it does not. -/
theorem test_vblank_suppression :
    let read := fun tick : Nat => (memRead 0x2002 { base with ppu := { base.ppu with tick := tick } }).2
    (ppuTick (read 82182)).ppu.vblank = false ∧ (ppuTick (ppuTick (read 82181))).ppu.vblank = true ∧
    (read 82183).ppu.suppress = false := by decide

/-- "VBlank clear" and the flags cleared at tick 89001. -/
theorem test_vblank_clear :
    (ppuTick { base with ppu := { base.ppu with tick := 89002, vblank := true } }).ppu.vblank = false ∧
    (ppuTick { base with ppu := { base.ppu with tick := 89001, sprite0Hit := true } }).ppu.sprite0Hit = false := by decide

/-- "NMI enable in VBlank": a new edge at the end of the next picture-unit tick. -/
theorem test_nmi_edge :
    (ppuTick (memWrite 0x2000 0x80 { base with ppu := { base.ppu with vblankDelayed := true } })).nmiPending = true := by
  decide

/-- "sprite overflow": nine sprites at Y = 10, eight of them found. -/
theorem test_sprite_overflow :
    let p := Ppu.evaluateSprites 10 { base.ppu with
      oam := [(0, 10), (4, 10), (8, 10), (12, 10), (16, 10), (20, 10), (24, 10), (28, 10), (32, 10)] }
    p.spriteOverflow = true ∧ p.sec.length = 8 := by decide

/-- "sprite 0 hit at x = 255": no hit there, a hit one column to the left. -/
theorem test_sprite0_column :
    let p := { base.ppu with mask := 0x18 }
    p.hitsSprite0 255 ⟨1, 0⟩ ⟨1, 0, false, true⟩ = false ∧ p.hitsSprite0 254 ⟨1, 0⟩ ⟨1, 0, false, true⟩ = true := by decide

/-- A Decode peeks the bytes of LDA abs in RAM, and takes one draw for each byte of the external device (rules R57,
R318; assumption 18). -/
theorem test_decode_at :
    (decodeAt 0x0300 (placed base [(0x0300, 0xAD), (0x0301, 0x34), (0x0302, 0x12)])).2 = [0x34, 0x12] ∧
    peekBytes 3 0x4000 base = [Config.externalIo 0, Config.externalIo 1, Config.externalIo 2] :=
  ⟨by decide, rfl⟩

/-- `withFetchWord` places a word the next step runs. -/
theorem test_with_fetch_word :
    after (State.reset.withFetchWord 16 0x42A9) (fun t => decide (t.a = 0x42 ∧ t.remaining + 1 = 2)) = true ∧
    decodeTableWord 16 0x42A9 = some (.ldaImm 0x42) ∧ decodeTableWord 8 0x00 = some .brk := by decide

/-! ### Witnesses for the hypotheses of the statements -/

theorem witness_DecodeOfEncode :
    (Instr.jam 0x02).wellFormed = true ∧ (Instr.jam 0xF2).wellFormed = true ∧ (Instr.nopZp 0x64 0xFF).wellFormed = true ∧
    (Instr.ancImm 0x2B 0xFF).wellFormed = true ∧ (Instr.nopZpX 0xF4 0xFF).wellFormed = true ∧
    (Instr.nopImp 0xFA).wellFormed = true ∧ (Instr.nopAbsX 0xFC 0xFFFF).wellFormed = true ∧
    (Instr.nopImm 0xE2 0xFF).wellFormed = true ∧ (Instr.isbAbsX 0xFFFF).wellFormed = true := by decide

theorem witness_EncodeOfDecode :
    decode [0xFF, 0xFF, 0xFF, 0x01] = .ok (.isbAbsX 0xFFFF) [0x01] ∧ decode [0x00] = .ok .brk [] := ⟨rfl, rfl⟩

theorem witness_OpcodeTableColumns : (Instr.nopAbsX 0x1C 0).wellFormed = true := rfl

theorem witness_StepRunsDecodedInstruction :
    let s := placed { base with pc := 0x0200, irqLine := true, flags := ⟨false, false, false, true, false, false⟩ }
      [(0x0200, 0xAD), (0x0201, 0x34), (0x0202, 0x12)]
    (s.refused = false ∧ s.remaining = 0 ∧ s.resetPending = false ∧ s.halted = false ∧ s.nmiPending = false ∧
      (s.irqLine = true → s.flags.i = true) ∧ (Instr.ldaAbs 0x1234).wellFormed = true ∧
      (readBytes (Instr.ldaAbs 0x1234).row.length s.pc s).1 = encode (.ldaAbs 0x1234)) ∧
    ((0x1FFF : Addr).toNat < 0x2000 ∧ 0x4020 ≤ (0x4020 : Addr).toNat) := by decide

theorem witness_StepDrainsCost : ({ base with remaining := 1 } : State).refused = false ∧
    0 < ({ base with remaining := 1 } : State).remaining := by decide

/-- One state for each clause of the priority. -/
theorem witness_BoundaryPriority :
    (State.reset.refused = false ∧ State.reset.remaining = 0 ∧ State.reset.resetPending = true) ∧
    (let s := { base with halted := true, nmiPending := true }
     s.refused = false ∧ s.remaining = 0 ∧ s.resetPending = false ∧ s.halted = true) ∧
    (let s := { base with nmiPending := true, irqLine := true }
     s.refused = false ∧ s.remaining = 0 ∧ s.resetPending = false ∧ s.halted = false ∧ s.nmiPending = true) ∧
    (let s := { base with irqLine := true }
     s.refused = false ∧ s.remaining = 0 ∧ s.resetPending = false ∧ s.halted = false ∧ s.nmiPending = false ∧
      s.irqLine = true ∧ s.flags.i = false) := by decide

theorem witness_RtiUndoesEntry : State.wf { base with sp := 0x00, pc := 0xFFFF } = true := by decide

theorem witness_RtsReturnsPastJsr : State.wf { base with sp := 0x00, pc := 0xFFFD } = true := by decide

/-- Halted with cost left, halted at a boundary, and a halted state that a Reset takes out of the halt. -/
theorem witness_JamHaltsUntilReset :
    (Instr.jam 0xB2).wellFormed = true ∧
    (let s := { base with halted := true, remaining := 1 }
     s.refused = false ∧ s.halted = true ∧ s.resetPending = false) ∧
    (let s := { base with halted := true }
     s.refused = false ∧ s.halted = true ∧ s.resetPending = false) ∧
    ({ State.reset with halted := true } : State).halted = true ∧
    after { State.reset with halted := true } (fun t => !t.halted) = true := by decide

theorem witness_EveryStepHasAnOutcome :
    base.refused = false ∧ ({ base with refused := true } : State).refused = true ∧
    ((Instr.xaaImm 0).wellFormed = true ∧ exec (.xaaImm 0) base = .next { base with pc := 2, refused := true }) ∧
    (({ base with params := ⟨.draw, .silicon⟩ } : State).params.unstable = .silicon ∧
      after { base with params := ⟨.draw, .silicon⟩ } (fun _ => true) = true) := by
  repeat' apply And.intro
  all_goals first | rfl | decide

/-- A step that has a next state without the mark, one that sets it, and one of a state with a Reset request that stays
pending; the cartridge declares CHR pages. -/
theorem witness_StepCountsOneCycle :
    after base (fun t => !t.refused) = true ∧ base.cart.chrPages ≠ 0 ∧
    after (at0300 [(0x0300, 0x8B)]) (fun t => t.refused) = true ∧
    after { base with remaining := 2, resetPending := true } (fun t => t.resetPending) = true := by decide

theorem witness_StepKeepsInvariant : base.wf = true ∧ after base (fun _ => true) = true := by decide

/-- The header of an image of variant 0 with one PRG page and CHR RAM. -/
def smallHeader : List Byte := [0x4E, 0x45, 0x53, 0x1A, 1, 0, 0, 0, 0, 0, 0, 0, 0, 0, 0, 0]

/-- An accepted image, whatever its page holds. -/
theorem witness_InvariantAtPowerOn :
    (Cartridge.blank.wf = true ∧ RamInit.unlisted.wf = true) ∧
    (Memory.wf 8192 ([] : Memory 8) = true ∧ ∀ page : List Byte, page.length = 16384 →
      loadCartridge (smallHeader ++ page) false [] [] =
        .cartridge (buildCartridge 0 1 0 0 page false [] [])) := by
  refine ⟨by decide, by decide, fun page h => ?_⟩
  have e : loadCartridge (smallHeader ++ page) false [] [] =
      loadWithHeader [0x4E, 0x45, 0x53, 0x1A] 1 0 0 0 [0, 0, 0, 0, 0, 0, 0, 0] page false [] [] := rfl
  have hf : unsupportedFlag 0 0 = none := by decide
  have hm : mapperNumber 0 0 = 0 := by decide
  have hz : ¬∃ z ∈ ([0, 0, 0, 0, 0, 0, 0, 0] : List Byte), z ≠ 0 := by decide
  rw [e, loadWithHeader, if_neg (by decide), hf]
  simp only [hm]
  rw [if_neg hz, if_neg (by decide), if_neg (by decide), if_neg (by decide), if_neg (by rw [h]; decide),
    if_neg (by rw [h]; decide)]
  rfl

/-- Images whose faults are invalid format only, unsupported format only (a trainer), and of both kinds. -/
theorem witness_InvariantAtPowerOn_faults :
    loadCartridge [] false [] [] = .error (.invalidFormat "short read") ∧
    (∀ page : List Byte, page.length = 16384 →
      loadCartridge ([0x4E, 0x45, 0x53, 0x1A, 1, 0, 4, 0, 0, 0, 0, 0, 0, 0, 0, 0] ++ page) false [] [] =
        .error (.unsupportedFormat "trainer present")) ∧
    loadCartridge [0, 0, 0, 0, 0, 0, 4] false [] [] = .error (.invalidFormat "short read") :=
  ⟨rfl, fun _ _ => rfl, rfl⟩

/-- A form of each kind, its operand at the end of its range. -/
theorem witness_LoadResults :
    ((Instr.ldaIndY 0xFF).wellFormed = true ∧ (Instr.ldaIndY 0xFF).kind = .lda ∧
      (Instr.ldaIndY 0xFF).operand.source = some (.memory (.indirectIndexed 0xFF))) ∧
    ((Instr.ldxImm 0x00).wellFormed = true ∧ (Instr.ldxImm 0x00).kind = .ldx ∧
      (Instr.ldxImm 0x00).operand.source = some (.immediate 0x00)) ∧
    ((Instr.ldyAbsX 0xFFFF).wellFormed = true ∧ (Instr.ldyAbsX 0xFFFF).kind = .ldy ∧
      (Instr.ldyAbsX 0xFFFF).operand.source = some (.memory (.absoluteX 0xFFFF))) := by decide

theorem witness_StoreResults :
    ((Instr.staAbs 0x4014).wellFormed = true ∧ (Instr.staAbs 0x4014).kind = .sta ∧
      (Instr.staAbs 0x4014).operand = .memory (.absolute 0x4014)) ∧
    ((Instr.stxZpY 0xFF).kind = .stx ∧ (Instr.stxZpY 0xFF).operand = .memory (.zeroPageY 0xFF)) ∧
    ((Instr.styZp 0x00).kind = .sty ∧ (Instr.styZp 0x00).operand = .memory (.zeroPage 0x00)) := by decide

theorem witness_AdcResult :
    (Instr.adcImm 0xFF).wellFormed = true ∧ (Instr.adcImm 0xFF).operand.source = some (.immediate 0xFF) ∧
    (Instr.adcImm 0xFF).kind = .adc := by decide

theorem witness_SbcResult :
    (Instr.sbcImmEB 0x01).wellFormed = true ∧ (Instr.sbcImmEB 0x01).operand.source = some (.immediate 0x01) ∧
    (Instr.sbcImmEB 0x01).kind = .sbc := by decide

theorem witness_LogicResults :
    ((Instr.andImm 0).kind = .and ∧ (Instr.andImm 0).operand.source = some (.immediate 0)) ∧
    ((Instr.oraZpX 0xFF).kind = .ora ∧ (Instr.oraZpX 0xFF).operand.source = some (.memory (.zeroPageX 0xFF))) ∧
    ((Instr.eorIndX 0xFF).kind = .eor ∧ (Instr.eorIndX 0xFF).operand.source = some (.memory (.indexedIndirect 0xFF))) ∧
    ((Instr.bitAbs 0xFFFF).kind = .bit ∧ (Instr.bitAbs 0xFFFF).operand.source = some (.memory (.absolute 0xFFFF))) := by
  decide

theorem witness_CompareResults :
    ((Instr.cmpAbsY 0xFFFF).kind = .cmp ∧ (Instr.cmpAbsY 0xFFFF).operand.source = some (.memory (.absoluteY 0xFFFF))) ∧
    ((Instr.cpxImm 0).kind = .cpx ∧ (Instr.cpxImm 0).operand.source = some (.immediate 0)) ∧
    ((Instr.cpyZp 0xFF).kind = .cpy ∧ (Instr.cpyZp 0xFF).operand.source = some (.memory (.zeroPage 0xFF))) := by decide

theorem witness_IncrementDecrementResults :
    ((Instr.incAbsX 0xFFFF).wellFormed = true ∧ (Instr.incAbsX 0xFFFF).kind = .inc ∧
      (Instr.incAbsX 0xFFFF).operand = .memory (.absoluteX 0xFFFF)) ∧
    ((Instr.decZp 0).kind = .dec ∧ (Instr.decZp 0).operand = .memory (.zeroPage 0)) := by decide

theorem witness_ShiftResults :
    (Instr.aslAcc.kind ∈ [Mnemonic.asl, .lsr, .rol, .ror] ∧ Instr.aslAcc.operand = .accumulator) ∧
    ((Instr.lsrAbs 0).kind ∈ [Mnemonic.asl, .lsr, .rol, .ror] ∧ (Instr.lsrAbs 0).operand = .memory (.absolute 0)) ∧
    ((Instr.rolZpX 1).kind = .rol ∧ (Instr.rolZpX 1).operand = .memory (.zeroPageX 1)) ∧
    ((Instr.rorAbsX 0xFFFF).kind = .ror ∧ (Instr.rorAbsX 0xFFFF).operand = .memory (.absoluteX 0xFFFF)) := by decide

theorem witness_NopResults :
    (Instr.nop.kind = .nop ∧ Instr.nop.operand = .implied) ∧
    ((Instr.nopImp 0xFA).wellFormed = true ∧ (Instr.nopImp 0xFA).kind = .nop ∧ (Instr.nopImp 0xFA).operand = .implied) ∧
    ((Instr.nopImm 0x80 1).kind = .nop ∧ (Instr.nopImm 0x80 1).operand = .immediate 1) ∧
    ((Instr.nopAbsX 0x1C 2).kind = .nop ∧ (Instr.nopAbsX 0x1C 2).operand = .memory (.absoluteX 2)) := by decide

theorem witness_LaxSaxResults :
    ((Instr.laxIndX 0).kind = .lax ∧ (Instr.laxIndX 0).operand = .memory (.indexedIndirect 0)) ∧
    ((Instr.saxAbs 0x4014).kind = .sax ∧ (Instr.saxAbs 0x4014).operand = .memory (.absolute 0x4014)) := by decide

theorem witness_CombinedResults :
    ((Instr.sloZp 0).kind = .slo ∧ (Instr.sloZp 0).operand = .memory (.zeroPage 0)) ∧
    ((Instr.rlaIndY 0).kind = .rla ∧ (Instr.rlaIndY 0).operand = .memory (.indirectIndexed 0)) ∧
    ((Instr.sreAbs 0).kind = .sre ∧ (Instr.sreAbs 0).operand = .memory (.absolute 0)) ∧
    ((Instr.rraAbsY 0).kind = .rra ∧ (Instr.rraAbsY 0).operand = .memory (.absoluteY 0)) ∧
    ((Instr.dcpIndX 0).kind = .dcp ∧ (Instr.dcpIndX 0).operand = .memory (.indexedIndirect 0)) ∧
    ((Instr.isbZpX 0).kind = .isb ∧ (Instr.isbZpX 0).operand = .memory (.zeroPageX 0)) := by decide

theorem witness_ImmediateCombinationResults :
    (Instr.ancImm 0x0B 0xFF).wellFormed = true ∧ (Instr.ancImm 0x2B 0x00).wellFormed = true := by decide

theorem witness_UnstableOpcodesMark :
    (Instr.lasAbsY 0).wellFormed = true ∧ (Instr.lasAbsY 0).opcode ∈ unstableOpcodes ∧ base.params.unstable = .refuse := by
  decide

/-- A store that crosses no page and one that does. -/
theorem witness_UnstableOpcodesOnSilicon :
    let s := { base with params := ⟨.draw, .silicon⟩, x := 1 }
    s.params.unstable = .silicon ∧ (resolve (.absoluteX 0x02FE) (atNext (.shyAbsX 0x02FE) s)).crossed = false ∧
    (resolve (.absoluteX 0x02FF) (atNext (.shyAbsX 0x02FF) s)).crossed = true := by decide

theorem witness_DecimalFlagHasNoEffect :
    (Instr.adcImm 0x09).kind ∉ [Mnemonic.cld, .sed, .php, .plp, .brk, .rti] ∧ (Instr.jam 0x02).wellFormed = true ∧
    (Instr.jam 0x02).kind ∉ [Mnemonic.cld, .sed, .php, .plp, .brk, .rti] := by
  decide

theorem witness_ReadInstructionFrame :
    ((Instr.axsImm 0).kind ∈ readKinds ∧ (Instr.axsImm 0).operand.source = some (.immediate 0) ∧
      exec (.axsImm 0) base = .next { base with
        pc := 2, flags := ⟨false, false, false, false, true, true⟩, remaining := 2 }) ∧
    ((Instr.nopZp 0x04 0).kind ∈ readKinds ∧ (Instr.nopZp 0x04 0).operand.source = some (.memory (.zeroPage 0)) ∧
      exec (.nopZp 0x04 0) base = .next { base with pc := 2, remaining := 3 }) := by
  repeat' apply And.intro
  all_goals first | rfl | decide

theorem witness_StoreInstructionFrame :
    base.wf = true ∧
    ((Instr.staZp 0x10).kind ∈ writeKinds ∧ (Instr.staZp 0x10).operand = .memory (.zeroPage 0x10) ∧
      exec (.staZp 0x10) base = .next { base with pc := 2, remaining := 3 }) ∧
    ((Instr.incZp 0x10).kind ∈ rmwKinds ∧ (Instr.incZp 0x10).operand = .memory (.zeroPage 0x10) ∧
      exec (.incZp 0x10) base = .next { base with ram := [(0x10, 1)], pc := 2, remaining := 5 }) ∧
    cpuStores base 0x0010 (.ram 0x11) = false := by
  repeat' apply And.intro
  all_goals first | rfl | decide

theorem witness_StackFrame :
    base.wf = true ∧ exec .pha { base with a := 1 } =
      .next { base with a := 1, ram := [(0x100, 1)], sp := 0xFF, pc := 1, remaining := 3 } ∧
    exec .plp base = .next { base with sp := 1, pc := 1, remaining := 4 } ∧
    exec (.jsrAbs 0x0600) base = .next { base with ram := [(0x1FF, 2)], sp := 0xFE, pc := 0x0600, remaining := 6 } := by
  repeat' apply And.intro
  all_goals first | rfl | decide

/-- Each range of the map at its first and last address. -/
theorem witness_CpuAddressMap :
    (0x0000 : Addr).toNat < 0x2000 ∧ (0x1FFF : Addr).toNat < 0x2000 ∧
    (0x2000 ≤ (0x2000 : Addr).toNat ∧ (0x3FFF : Addr).toNat < 0x4000) ∧
    (0x4000 ≤ (0x4000 : Addr).toNat ∧ (0x4017 : Addr).toNat < 0x4018 ∧ (0x4017 : Addr).toNat ≠ 0x4014) ∧
    (0x4014 : Addr).toNat = 0x4014 ∧
    (0x4018 ≤ (0x4018 : Addr).toNat ∧ (0x401F : Addr).toNat < 0x4020) ∧ 0x4020 ≤ (0x4020 : Addr).toNat := by decide

theorem witness_MapperZero :
    Cartridge.blank.mapper = .variant0 ∧ 0x8000 ≤ (0x8000 : Addr).toNat ∧ 0x8000 ≤ (0xFFFF : Addr).toNat ∧
    Cartridge.blank.prgPages = 2 ∧ 0x3FFF < 16384 ∧
    (({ Cartridge.blank with mapper0Wram := true } : Cartridge).mapper = .variant0 ∧
      ({ Cartridge.blank with mapper0Wram := true } : Cartridge).mapper0Wram = true ∧
      0x6000 ≤ (0x6000 : Addr).toNat ∧ (0x7FFF : Addr).toNat < 0x8000) ∧
    (0x4020 ≤ (0x4020 : Addr).toNat ∧ (0x5FFF : Addr).toNat < 0x6000) ∧
    (Cartridge.blank.mapper0Wram = false ∧ 0x4020 ≤ (0x6000 : Addr).toNat ∧ (0x7FFF : Addr).toNat < 0x8000) ∧
    (0x0000 : BitVec 14).toNat < 0x2000 ∧ (0x1FFF : BitVec 14).toNat < 0x2000 ∧
    (({ Cartridge.blank with chrPages := 1 } : Cartridge).mapper = .variant0 ∧
      ({ Cartridge.blank with chrPages := 1 } : Cartridge).chrPages ≠ 0 ∧
      ({ Cartridge.blank with chrPages := 0 } : Cartridge).chrPages = 0) := by decide

/-- A reset write, and five data writes whose fifth address selects each register. -/
theorem witness_SerialRegisterLoad :
    serial8.mapper = .serial ∧ serial8.shiftCount = 0 ∧ (0x80 : Byte).getLsbD 7 = true ∧ (0x01 : Byte).getLsbD 7 = false ∧
    ([0x8000, 0xA000, 0xC000, 0xFFFF] : List Addr).map (fun a => a.toNat / 8192 % 4) = [0, 1, 2, 3] ∧
    0x8000 ≤ (0x8000 : Addr).toNat := by decide

theorem witness_SerialBanks :
    serial8.mapper = .serial ∧ 0x8000 ≤ (0x8000 : Addr).toNat ∧ 0x8000 ≤ (0xBFFF : Addr).toNat ∧
    0x8000 ≤ (0xC000 : Addr).toNat ∧
    (0x6000 ≤ (0x6000 : Addr).toNat ∧ (0x7FFF : Addr).toNat < 0x8000) ∧
    (0x4020 ≤ (0x4020 : Addr).toNat ∧ (0x5FFF : Addr).toNat < 0x6000) ∧
    (0x0FFF : BitVec 14).toNat < 0x2000 ∧ (0x1FFF : BitVec 14).toNat < 0x2000 := by decide

/-- The first and the last page of internal RAM and of cartridge space, page `$40`, and the indexes where its three
parts meet. -/
theorem witness_OamDmaCopiesPage :
    base.wf = true ∧ (0x00 : Byte).toNat < 0x20 ∧ (0x1F : Byte).toNat < 0x20 ∧ 0x41 ≤ (0x41 : Byte).toNat ∧
    0x41 ≤ (0xFF : Byte).toNat ∧ (0x40 : Byte).toNat = 0x40 ∧
    ([0x17, 0x18, 0x1F, 0x20] : List Nat).map (fun i => (decide (i < 0x18), decide (i < 0x20))) =
      [(true, true), (false, true), (false, true), (false, false)] := by decide

theorem witness_ScrollAndAddressWrites :
    base.ppu.w = false ∧ ({ base.ppu with w := true } : Ppu).w = true ∧ base.wf = true ∧
    (0 : BitVec 3) ∈ ([0, 1, 3, 5, 6] : List (BitVec 3)) ∧ base.params.ppuOpenBus = .draw ∧
    (⟨.latch, .refuse⟩ : Params).ppuOpenBus = .latch := by decide

theorem witness_StatusRead :
    (0x2000 ≤ (0x2002 : Addr).toNat ∧ (0x2002 : Addr).toNat < 0x4000 ∧ (0x2002 : Addr).toNat % 8 = 2) ∧
    (0x2000 ≤ (0x3FFA : Addr).toNat ∧ (0x3FFA : Addr).toNat < 0x4000 ∧ (0x3FFA : Addr).toNat % 8 = 2) ∧
    base.params.ppuOpenBus = .draw ∧ (⟨.latch, .refuse⟩ : Params).ppuOpenBus = .latch := by decide

/-- `v` and `x` at the ends of the pattern, nametable and palette ranges, and a cartridge of each mirroring. -/
theorem witness_DataRegister :
    base.wf = true ∧
    ([0, 1, 2, 3] : List (BitVec 5)).map (fun n => ({ serial8 with control := n } : Cartridge).mirroring) =
      [.singleLower, .singleUpper, .vertical, .horizontal] ∧
    ((0x1FFF : BitVec 14).toNat < 0x2000 ∧ 0x2000 ≤ (0x2000 : BitVec 14).toNat ∧ (0x3EFF : BitVec 14).toNat < 0x3F00 ∧
      0x3F00 ≤ (0x3F00 : BitVec 14).toNat) ∧
    ([0x0000, 0x1FFF, 0x2000, 0x3EFF, 0x3F00, 0x3FFF] : List (BitVec 15)).map
        (fun v => State.wf { base with ppu := { base.ppu with v := v } }) = [true, true, true, true, true, true] ∧
    (BitVec.ofNat 14 (0x1FFF : BitVec 15).toNat).toNat < 0x2000 ∧
    0x2000 ≤ (BitVec.ofNat 14 (0x2000 : BitVec 15).toNat).toNat ∧
    (BitVec.ofNat 14 (0x3EFF : BitVec 15).toNat).toNat < 0x3F00 ∧
    0x3F00 ≤ (BitVec.ofNat 14 (0x3F00 : BitVec 15).toNat).toNat ∧
    base.params.ppuOpenBus = .draw ∧ (⟨.latch, .refuse⟩ : Params).ppuOpenBus = .latch := by decide

/-- Sprite 0 and a background pixel both opaque at column 2 of line 0, both layers shown in every column. -/
def hitPpu : Ppu :=
  { base.ppu with
    tick := 3, mask := 0x1E, bgLo := 0xFFFF, bgHi := 0xFFFF, sprCount := 1, sprHas0 := true
    slots := Vector.replicate 8 ⟨0xFF, 0xFF, 0, 0⟩ }

/-- The unit before tick `n`, with the three Status flags as given. -/
def ppuBefore (n : Nat) (flags : Bool) : State :=
  { base with ppu := { base.ppu with tick := n, vblank := flags, sprite0Hit := flags, spriteOverflow := flags } }

/-- VBlank is set at 82182, kept at 89001 and cleared at 89002; hit and overflow are cleared at 89001 and kept at 82182
and 89002. -/
theorem witness_VblankAndNmi :
    (ppuTick (ppuBefore 82182 false)).ppu.vblank = true ∧ (ppuTick (ppuBefore 89002 true)).ppu.vblank = false ∧
    (ppuTick (ppuBefore 89001 true)).ppu.vblank = true ∧
    (ppuTick (ppuBefore 89001 true)).ppu.sprite0Hit = false ∧
    (ppuTick (ppuBefore 89001 true)).ppu.spriteOverflow = false ∧
    (ppuTick (ppuBefore 89002 true)).ppu.sprite0Hit = true ∧
    (ppuTick (ppuBefore 82182 true)).ppu.spriteOverflow = true := by decide

/-- A tick that sets sprite-zero hit, and one at cycle 257 of line 0 that sets overflow, every sprite being at line 0. -/
theorem witness_VblankAndNmi_set :
    hitPpu.sprite0Hit = false ∧ hitAt hitPpu 3 = true ∧
    (ppuTick { base with ppu := hitPpu }).ppu.sprite0Hit = true ∧
    (ppuTick { base with ppu := { base.ppu with tick := 257, mask := 0x08 } }).ppu.spriteOverflow = true := by decide

theorem witness_FrameLength :
    base.ppu.tick = 0 ∧
    (let p : Ppu := { base.ppu with oddFrame := true, mask := 0x08 }
     (p.oddFrame && (p.mask.getLsbD 3 || p.mask.getLsbD 4)) = true) ∧
    (base.ppu.oddFrame && (base.ppu.mask.getLsbD 3 || base.ppu.mask.getLsbD 4)) = false := by decide

/-- The skip, the same tick with rendering off, and the last tick, by the Mask at that tick (rule R402). -/
theorem witness_FrameLength_wraps :
    let at89340 := fun m : Byte => ppuTick { base with ppu := { base.ppu with tick := 89340, oddFrame := true, mask := m } }
    (at89340 0x08).ppu.tick = 0 ∧ (at89340 0x08).ppu.oddFrame = false ∧ (at89340 0x00).ppu.tick = 89341 ∧
    (ppuTick (at89340 0x00)).ppu.tick = 0 ∧ (ppuTick (at89340 0x00)).ppu.oddFrame = false := by decide

theorem witness_ScrollMovement :
    let p : Ppu := { base.ppu with mask := 0x10, tick := 261 * 341 + 304 }
    (p.mask.getLsbD 3 || p.mask.getLsbD 4) = true ∧ p.tick / 341 = 261 ∧ 239 * 341 / 341 < 240 ∧
    240 ≤ 240 * 341 / 341 ∧ 240 ≤ (260 * 341 + 340) / 341 ∧ (260 * 341 + 340) / 341 ≠ 261 := by decide

/-- Rendering off; rendering on at a visible position, where the sprite's colour is written and no other cell. -/
theorem witness_RenderingDisabled :
    (base.wf = true ∧ base.ppu.mask.getLsbD 3 = false ∧ base.ppu.mask.getLsbD 4 = false) ∧
    (let s : State := { base with ppu := { hitPpu with pal := hitPpu.pal.write 19 0x2A } }
     s.wf = true ∧ (s.ppu.mask.getLsbD 3 || s.ppu.mask.getLsbD 4) = true ∧
     (ppuTick s).ppu.frame.read 2 = 0x2A ∧ (ppuTick s).ppu.frame.read 3 = s.ppu.frame.read 3) := by decide

end Sys2Proof.Tests
end

section
/-! PROOF. Every instruction and every step of an unmarked machine has a next state, and only the unstable opcodes under
`UNSTABLE_OPCODES = refuse` set the refusal mark (rules R9, R32, R240, R300, R503). -/

namespace Sys2Proof.Machine

/-! ### Every instruction has a next state -/

theorem rmwInstr_next (op : Byte) (target : Target) (modify : Byte → Flags → Byte × Flags)
    (effect : Byte → State → State) (s : State) : ∃ t, rmwInstr op target modify effect s = .next t := by
  cases target <;> exact ⟨_, rfl⟩

theorem branchInstr_next (op : Byte) (cond : Flags → Bool) (d : Byte) (s : State) :
    ∃ t, branchInstr op cond d s = .next t := by
  unfold branchInstr
  simp only []
  split <;> exact ⟨_, rfl⟩

theorem unstableInstr_next (op : Byte) (run : State → State × (Nat → Nat)) (s : State) :
    ∃ t, unstableInstr op run s = .next t := by
  unfold unstableInstr
  split <;> exact ⟨_, rfl⟩

/-- Whichever form an instruction runs, the form answers a next state. -/
theorem execForm_next {k : Mnemonic} {op : Byte} {o : Operand} {f : State → Result} (h : execForm k op o = some f)
    (s : State) : ∃ t, f s = .next t := by
  unfold execForm at h
  split at h
  · cases h; exact ⟨_, rfl⟩
  · cases h; exact ⟨_, rfl⟩
  · cases h; exact ⟨_, rfl⟩
  · split at h <;> cases h
    exact ⟨_, rfl⟩
  · split at h <;> cases h
    exact branchInstr_next _ _ _ s
  · split at h <;> cases h
    exact rmwInstr_next _ _ _ _ s
  · split at h
    · cases h; exact ⟨_, rfl⟩
    · split at h <;> cases h
      exact unstableInstr_next _ _ s
  · split at h
    · cases h; exact ⟨_, rfl⟩
    · split at h
      · cases h; exact ⟨_, rfl⟩
      · split at h
        · cases h; exact rmwInstr_next _ _ _ _ s
        · split at h <;> cases h
          exact unstableInstr_next _ _ s
  · cases h

/-- A term that is no instruction carries an opcode byte that is none of its constructor's; it too runs the
constructor's form. -/
theorem exec_next_of_not_wellFormed {i : Instr} (hw : i.wellFormed = false) (s : State) :
    ∃ t, exec i s = .next t := by
  cases i with
  | jam op => exact ⟨_, rfl⟩
  | nopZp op a => exact ⟨_, rfl⟩
  | ancImm op m => exact ⟨_, rfl⟩
  | nopZpX op a => exact ⟨_, rfl⟩
  | nopImp op => exact ⟨_, rfl⟩
  | nopAbsX op w => exact ⟨_, rfl⟩
  | nopImm op m => exact ⟨_, rfl⟩
  | _ => cases hw

/-- `exec` is total: inside the running core there is no error path (rules R9, R300). -/
theorem exec_next (i : Instr) (s : State) : ∃ t, exec i s = .next t := by
  cases hw : i.wellFormed with
  | false => exact exec_next_of_not_wellFormed hw s
  | true =>
    obtain ⟨f, hf, he⟩ := Option.map_eq_some_iff.mp (exec_form hw s)
    exact he ▸ execForm_next hf s

/-! ### Which instructions set the refusal mark -/

/-- The opcode table gives the unstable mnemonics to the eight unstable opcode bytes and to no other (rule R240). -/
theorem kind_mem_unstableKinds_iff (i : Instr) : i.kind ∈ unstableKinds ↔ i.opcode ∈ unstableOpcodes := by
  have rows : ∀ op : Byte, (opcodeRow op).kind ∈ unstableKinds ↔ op ∈ unstableOpcodes := by decide +kernel
  exact rows i.opcode

theorem unstableInstr_refused {op : Byte} {run : State → State × (Nat → Nat)} {s t : State}
    (hp : s.params.unstable = .refuse) (h : unstableInstr op run s = .next t) : t.refused = true := by
  unfold unstableInstr at h
  rw [hp] at h
  cases h
  rfl

/-- An instruction leaves the mark as it is, but for an unstable opcode under `refuse`, which sets it (rule R240). -/
theorem exec_refused_iff {i : Instr} {s t : State} (hw : i.wellFormed = true) (h : exec i s = .next t) :
    t.refused = true ↔ s.refused = true ∨ i.opcode ∈ unstableOpcodes ∧ s.params.unstable = .refuse := by
  rw [← kind_mem_unstableKinds_iff]
  by_cases hk : i.kind ∈ unstableKinds
  · cases hp : s.params.unstable with
    | refuse =>
      have ht : t.refused = true := unstableInstr_refused hp (exec_unstable hw hk s ▸ h)
      simp [ht, hk]
    | silicon => simp [(exec_keeps hw (.inr hp) h).refused]
  · simp [(exec_keeps hw (.inl hk) h).refused, hk]

/-! ### A fetch -/

theorem decodeOp_wellFormed (op b1 b2 : Byte) : (decodeOp op b1 b2).wellFormed = true := by
  have table : (instrBlocks.all fun block => block.all fun read => (read b1 b2).wellFormed) = true := rfl
  simp only [List.all_eq_true] at table
  exact table _ (List.getElem_mem _) _ (List.getElem_mem _)

theorem fetch_wellFormed (s : State) : (fetch s).1.wellFormed = true := by
  unfold fetch
  simp only []
  split <;> exact decodeOp_wellFormed _ _ _

theorem Keeps.fetch (s : State) : Keeps s (fetch s).2 := by
  unfold Machine.fetch
  simp only []
  split
  · exact .memRead _ s
  · exact (Keeps.memRead _ s).trans (.memRead _ _)
  · exact (Keeps.memRead _ s).trans ((Keeps.memRead _ _).trans (.memRead _ _))

/-! ### A step -/

theorem boundary_next (s : State) : ∃ t, boundary s = .next t := by
  unfold boundary
  split
  · exact ⟨_, rfl⟩
  · exact ⟨_, rfl⟩
  · exact ⟨_, rfl⟩
  · exact ⟨_, rfl⟩
  · exact exec_next _ _

theorem cpuTick_next (s : State) : ∃ t, cpuTick s = .next t := by
  obtain ⟨t, ht⟩ := boundary_next s
  unfold cpuTick
  rw [ht]
  split <;> exact ⟨_, rfl⟩

/-- A step of an unmarked state is its CPU tick and three picture-unit ticks (rule R503). -/
theorem step_of_cpuTick {s u : State} (hs : s.refused = false) (h : cpuTick s = .next u) :
    step s = .next (ppuTicks u) := by
  unfold step coordinatorStep
  rw [hs, h]
  rfl

/-- A marked state takes no further step (rule R32). -/
theorem step_of_refused {s : State} (hs : s.refused = true) : step s = .refused .refusedState := by
  unfold step coordinatorStep
  rw [hs]
  rfl

theorem step_next {s : State} (hs : s.refused = false) : ∃ t, step s = .next t := by
  obtain ⟨u, hu⟩ := cpuTick_next s
  exact ⟨_, step_of_cpuTick hs hu⟩

/-! ### No step marks a state under silicon -/

@[simp] theorem resetSequence_refused (s : State) : (resetSequence s).refused = s.refused := by
  simp [resetSequence, read16_resetVector]

theorem interruptEntry_refused {vector : Addr} (hv : cpuRegion vector = .cartridge)
    (hv' : cpuRegion (vector + 1) = .cartridge) (s : State) : (interruptEntry vector s).refused = s.refused :=
  (Keeps.enterInterrupt s.pc false vector hv hv' s).refused

/-- No service sets the mark where the unstable opcodes run; Reset does not clear it either (rules R32, R306). -/
theorem boundary_refused {s t : State} (hp : s.params.unstable = .silicon) (h : boundary s = .next t) :
    t.refused = s.refused := by
  unfold boundary at h
  split at h
  · cases h; exact resetSequence_refused s
  · cases h; rfl
  · cases h; exact interruptEntry_refused (by decide) (by decide) _
  · cases h; exact interruptEntry_refused (by decide) (by decide) s
  · have hf := Keeps.fetch s
    have hp' : (fetch s).2.params.unstable = .silicon := by rw [hf.params, hp]
    rw [(exec_keeps (fetch_wellFormed s) (.inr hp') h).refused, hf.refused]

theorem cpuTick_refused {s t : State} (hp : s.params.unstable = .silicon) (h : cpuTick s = .next t) :
    t.refused = s.refused := by
  obtain ⟨u, hu⟩ := boundary_next s
  have hb := boundary_refused hp hu
  unfold cpuTick at h
  rw [hu] at h
  split at h
  · cases h
    split <;> exact hb
  · cases h; rfl

@[simp] theorem ppuTicks_refused (s : State) : (ppuTicks s).refused = s.refused := rfl

/-- A step has a next state only from an unmarked one, and under `silicon` that next state is unmarked too. -/
theorem step_unmarked {s t : State} (hp : s.params.unstable = .silicon) (h : step s = .next t) : t.refused = false := by
  cases hs : s.refused with
  | true => rw [step_of_refused hs] at h; cases h
  | false =>
    obtain ⟨u, hu⟩ := cpuTick_next s
    rw [step_of_cpuTick hs hu] at h
    cases h
    rw [ppuTicks_refused, cpuTick_refused hp hu, hs]

/-- Settles O19: `exec` is total form by form, so a boundary, a CPU tick and a step are; the mark comes from
`unstableInstr` alone. -/
theorem everyStepHasAnOutcome : Obligations.EveryStepHasAnOutcome := by
  refine ⟨exec_next, fun _ => step_next, fun _ => step_of_refused, ?_, fun _ _ => step_unmarked⟩
  intro i s t hw hs h
  simpa [hs] using exec_refused_iff hw h

end Sys2Proof.Machine
end

section
/-! PROOF. What a coordinator step does besides the instruction it runs: it drains cost, idles a halted machine, counts
one cycle and keeps the ROM, the parameters and the inputs (rules R28 to R31, R303, R304, R502, R503, R513). -/

namespace Sys2Proof.Machine

/-! ### What a step is made of -/

/-- A state that has a step is unmarked, and the step is its CPU tick and three picture-unit ticks (rules R32, R503). -/
theorem step_cases {s t : State} (h : step s = .next t) :
    s.refused = false ∧ ∃ u, cpuTick s = .next u ∧ t = ppuTicks u := by
  cases hs : s.refused with
  | true => rw [step_of_refused hs] at h; cases h
  | false =>
    obtain ⟨u, hu⟩ := cpuTick_next s
    rw [step_of_cpuTick hs hu] at h
    cases h
    exact ⟨rfl, u, hu, rfl⟩

theorem cpuTick_of_cost {s : State} (hr : 0 < s.remaining) : cpuTick s = .next (drain s) := if_neg hr.ne'

theorem cpuTick_of_boundary {s u : State} (hr : s.remaining = 0) (h : boundary s = .next u) :
    cpuTick s = .next (if u.refused then u else drain u) := by
  unfold cpuTick
  rw [if_pos hr, h]

theorem step_of_cost {s : State} (hs : s.refused = false) (hr : 0 < s.remaining) :
    step s = .next (ppuTicks (drain s)) :=
  step_of_cpuTick hs (cpuTick_of_cost hr)

theorem step_of_boundary {s u : State} (hs : s.refused = false) (hr : s.remaining = 0) (h : boundary s = .next u)
    (hu : u.refused = false) : step s = .next (ppuTicks (drain u)) := by
  rw [step_of_cpuTick hs (cpuTick_of_boundary hr h), hu]
  rfl

/-- Settles O8: with cost left a CPU tick is the drain alone. -/
theorem stepDrainsCost : Obligations.StepDrainsCost := fun _ hs hr => step_of_cost hs hr

/-! ### The halted machine -/

theorem boundary_of_reset {s : State} (hp : s.resetPending = true) : boundary s = .next (resetSequence s) := by
  simp [boundary, State.service, hp]

theorem boundary_of_halted {s : State} (hp : s.resetPending = false) (hh : s.halted = true) :
    boundary s = .next (haltedBoundary s) := by
  simp [boundary, State.service, hp, hh]

/-- A JAM byte's row is one byte long and has no cycle count, for which the cost is 1 (rules R257, R504). -/
theorem jamOpcodes_row : ∀ op ∈ jamOpcodes, (opcodeRow op).length = 1 ∧ baseCost op false = 1 := by decide

theorem exec_jam {op : Byte} (hw : (Instr.jam op).wellFormed = true) (s : State) :
    exec (.jam op) s = .next { s with halted := true, pc := s.pc + 1, remaining := 1 } := by
  obtain ⟨hl, hc⟩ := jamOpcodes_row op (of_decide_eq_true hw)
  have he : exec (.jam op) s = impliedInstr op jamEffect s := rfl
  rw [he, impliedInstr, hc, State.advance, hl]
  rfl

/-- A halted step, at a boundary or not, only drains: the boundary sets the cost 1 that its own tick takes away (rule
R513). -/
theorem step_of_halted {s : State} (hs : s.refused = false) (hh : s.halted = true) (hp : s.resetPending = false) :
    step s = .next (ppuTicks (drain s)) := by
  rcases Nat.eq_zero_or_pos s.remaining with hr | hr
  · have idle : drain (haltedBoundary s) = drain s := by simp [drain, haltedBoundary, State.setRemaining, hr]
    rw [step_of_boundary hs hr (boundary_of_halted hp hh) hs, idle]
  · exact step_of_cost hs hr

/-- The only step that clears `halted` services a Reset (rule R31). -/
theorem reset_of_step_leaves_halt {s t : State} (hh : s.halted = true) (h : step s = .next t) (ht : t.halted = false) :
    s.resetPending = true ∧ s.remaining = 0 := by
  have hs := (step_cases h).1
  have moves : step s ≠ .next (ppuTicks (drain s)) := by
    intro e
    rw [h] at e
    cases e
    exact Bool.noConfusion (hh.symm.trans ht)
  constructor
  · by_contra hp
    exact moves (step_of_halted hs hh (Bool.not_eq_true _ ▸ hp))
  · by_contra hr
    exact moves (step_of_cost hs (Nat.pos_of_ne_zero hr))

/-- Settles O18: a halted step is a drain, so only a Reset's boundary can end the halt. -/
theorem jamHaltsUntilReset : Obligations.JamHaltsUntilReset :=
  ⟨.of_checks (by decide) (by decide +kernel), fun _ s hw => exec_jam hw s, fun _ => step_of_halted,
    fun _ _ => reset_of_step_leaves_halt⟩

/-! ### What every step leaves -/

/-- What neither a service nor a drain changes: the ROM, the parameters and the IRQ level, and the frame position, which
only the ticks at the end of a step move; nor does either set a Reset request (rules R74, R303, R304). -/
structure StepFrame (s t : State) : Prop where
  tick : t.ppu.tick = s.ppu.tick
  params : t.params = s.params
  irqLine : t.irqLine = s.irqLine
  rom : s.cart.SameRom t.cart
  resetPending : t.resetPending = true → s.resetPending = true

theorem StepFrame.trans {s t u : State} (h : StepFrame s t) (h' : StepFrame t u) : StepFrame s u :=
  ⟨h'.tick.trans h.tick, h'.params.trans h.params, h'.irqLine.trans h.irqLine, h.rom.trans h'.rom,
    h.resetPending ∘ h'.resetPending⟩

theorem StepFrame.drain (s : State) : StepFrame s (drain s) := ⟨rfl, rfl, rfl, .refl _, id⟩

/-- A service counts no cycle either: the drain after it does (rules R28, R502). -/
structure Serviced (s t : State) : Prop extends StepFrame s t where
  cycles : t.cycles = s.cycles

theorem Serviced.trans {s t u : State} (h : Serviced s t) (h' : Serviced t u) : Serviced s u :=
  ⟨h.toStepFrame.trans h'.toStepFrame, h'.cycles.trans h.cycles⟩

theorem SameControl.serviced {s t : State} (h : SameControl s t) : Serviced s t :=
  ⟨⟨h.tick, h.params, h.irqLine, h.rom, fun ht => h.resetPending ▸ ht⟩, h.cycles⟩

/-- Every instruction is a service, an unstable opcode that only sets the mark too. -/
theorem Serviced.exec {i : Instr} {s t : State} (hw : i.wellFormed = true) (h : exec i s = .next t) : Serviced s t := by
  by_cases hu : i.kind ∉ unstableKinds ∨ s.params.unstable = .silicon
  · exact (exec_keeps hw hu h).serviced
  · obtain ⟨hk, hp⟩ := not_or.mp hu
    rw [exec_unstable hw (not_not.mp hk)] at h
    unfold unstableInstr at h
    split at h
    · cases h
      exact ⟨⟨rfl, rfl, rfl, .refl _, id⟩, rfl⟩
    · exact absurd ‹_› hp

/-- The Reset sequence writes no memory and clears the latches (rule R501). -/
theorem resetSequence_eq (s : State) :
    resetSequence s = { s with
      sp := s.sp - 3
      flags := { s.flags with i := true }
      pc := word16 (s.cart.getCpuAt 0xFFFD) (s.cart.getCpuAt 0xFFFC)
      halted := false
      nmiPending := false
      resetPending := false
      remaining := 7 } := by
  simp only [resetSequence, read16_resetVector]
  rfl

theorem Serviced.resetSequence (s : State) : Serviced s (resetSequence s) := by
  rw [resetSequence_eq]
  exact ⟨⟨rfl, rfl, rfl, .refl _, nofun⟩, rfl⟩

theorem Serviced.interruptEntry {vector : Addr} (hv : cpuRegion vector = .cartridge)
    (hv' : cpuRegion (vector + 1) = .cartridge) (s : State) : Serviced s (interruptEntry vector s) :=
  ((Keeps.enterInterrupt s.pc false vector hv hv' s).trans (Keeps.setRemaining _ 7)).serviced

theorem Serviced.nmiEntry (s : State) : Serviced s (nmiEntry s) :=
  have cleared : Serviced s { s with nmiPending := false } := ⟨⟨rfl, rfl, rfl, .refl _, id⟩, rfl⟩
  cleared.trans (.interruptEntry (by decide) (by decide) _)

theorem Serviced.boundary {s t : State} (h : boundary s = .next t) : Serviced s t := by
  unfold Machine.boundary at h
  split at h
  · cases h; exact .resetSequence s
  · cases h; exact (Keeps.setRemaining s 1).serviced
  · cases h; exact .nmiEntry s
  · cases h; exact .interruptEntry (by decide) (by decide) s
  · exact (Keeps.fetch s).serviced.trans (.exec (fetch_wellFormed s) h)

/-- A CPU tick counts one cycle unless it sets the mark (rule R502). -/
theorem cpuTick_frame {s t : State} (h : cpuTick s = .next t) :
    StepFrame s t ∧ (t.refused = false → t.cycles = s.cycles + 1) := by
  rcases Nat.eq_zero_or_pos s.remaining with hr | hr
  · obtain ⟨u, hb⟩ := boundary_next s
    have hu := Serviced.boundary hb
    rw [cpuTick_of_boundary hr hb] at h
    cases h
    cases hm : u.refused with
    | true => exact ⟨hu.toStepFrame, fun ht => Bool.noConfusion (hm.symm.trans ht)⟩
    | false => exact ⟨hu.toStepFrame.trans (.drain u), fun _ => congrArg (· + 1) hu.cycles⟩
  · rw [cpuTick_of_cost hr] at h
    cases h
    exact ⟨.drain s, fun _ => rfl⟩

/-- Settles O20: the frame of the CPU tick, which the three picture-unit ticks after it leave as it is. -/
theorem stepCountsOneCycle : Obligations.StepCountsOneCycle := by
  intro s t h
  obtain ⟨-, u, hu, rfl⟩ := step_cases h
  obtain ⟨⟨tick, params, irqLine, rom, reset⟩, cycles⟩ := cpuTick_frame hu
  exact ⟨cycles, ⟨u, rfl, tick⟩, params, irqLine, rom.prg, rom.chr, rom.mapper, rom.prgPages, rom.chrPages,
    rom.verticalFlag, rom.mapper0Wram, reset⟩

end Sys2Proof.Machine
end

section
/-! PROOF. The Reset sequence from power-on (rules R36, R438, R500, R501): one boundary, six drained cycles and 21
picture-unit ticks. -/

namespace Sys2Proof.Machine

/-! ### Picture-unit ticks that raise no NMI -/

/-- Steps 2 to 4 of a tick write no memory but the frame buffer (rule R421). -/
theorem Ppu.render_memories (cart : Cartridge) (line c : Nat) (p : Ppu) :
    (p.render cart line c).oam = p.oam ∧ (p.render cart line c).ntRam = p.ntRam ∧
      (p.render cart line c).pal = p.pal := by
  unfold Ppu.render
  rw [Ppu.sprites_frame, Ppu.background_frame]
  split_ifs <;> exact ⟨rfl, rfl, rfl⟩

/-- The flag events and the steps after them leave the tick, Control and the memories but the frame buffer. -/
theorem Ppu.render_flagEvents (cart : Cartridge) (line c : Nat) (p : Ppu) :
    let q := p.flagEvents.render cart line c
    q.tick = p.tick ∧ q.ctrl = p.ctrl ∧ q.oam = p.oam ∧ q.ntRam = p.ntRam ∧ q.pal = p.pal := by
  obtain ⟨tick, -, ctrl, -⟩ := p.flagEvents.render_keeps cart line c
  obtain ⟨oam, ntRam, pal⟩ := p.flagEvents.render_memories cart line c
  rw [Ppu.flagEvents_frame] at tick ctrl oam ntRam pal
  rw [Ppu.flagEvents_frame]
  exact ⟨tick, ctrl, oam, ntRam, pal⟩

/-- The picture unit `n` ticks on inside one frame: Control and every memory but the frame buffer as they were. -/
structure Ppu.TicksOn (n : Nat) (p q : Ppu) : Prop where
  tick : q.tick = p.tick + n
  ctrl : q.ctrl = p.ctrl
  oam : q.oam = p.oam
  ntRam : q.ntRam = p.ntRam
  pal : q.pal = p.pal

theorem Ppu.TicksOn.trans {m n : Nat} {p q r : Ppu} (h : Ppu.TicksOn m p q) (h' : Ppu.TicksOn n q r) :
    Ppu.TicksOn (m + n) p r :=
  ⟨by rw [h'.tick, h.tick, Nat.add_assoc], h'.ctrl.trans h.ctrl, h'.oam.trans h.oam, h'.ntRam.trans h.ntRam,
    h'.pal.trans h.pal⟩

/-- Before the last two ticks of a frame the advance only counts (rule R402). -/
theorem Ppu.advance_of_lt {p : Ppu} (h : p.tick < 89340) : p.advance = { p with tick := p.tick + 1 } := by
  unfold Ppu.advance
  rw [if_neg (by omega), if_neg (by omega)]

/-- With NMI off in Control the NMI output is low, so a tick changes the picture unit only (rules R302, R420). -/
theorem ppuTick_of_nmi_off {s : State} (ht : s.ppu.tick < 89340) (hc : s.ppu.ctrl.getLsbD 7 = false) :
    ∃ q, Ppu.TicksOn 1 s.ppu q ∧ ppuTick s = s.setPpu q := by
  obtain ⟨tick, ctrl, oam, ntRam, pal⟩ := s.ppu.render_flagEvents s.cart s.ppu.scanline s.ppu.cycle
  have low : (s.ppu.flagEvents.render s.cart s.ppu.scanline s.ppu.cycle).nmiLevel = false := by
    simp only [Ppu.nmiLevel, bit, ctrl, hc, Bool.and_false]
  refine ⟨_, ?_, by simp only [ppuTick, low, Bool.false_and, Bool.or_false]; rfl⟩
  rw [Ppu.advance_of_lt (p := Ppu.updateNmi _) (lt_of_eq_of_lt tick ht)]
  exact ⟨congrArg (· + 1) tick, ctrl, oam, ntRam, pal⟩

theorem ppuTick_iterate_of_nmi_off {n : Nat} {s : State} (ht : s.ppu.tick + n ≤ 89340)
    (hc : s.ppu.ctrl.getLsbD 7 = false) : ∃ q, Ppu.TicksOn n s.ppu q ∧ ppuTick^[n] s = s.setPpu q := by
  induction n with
  | zero => exact ⟨s.ppu, ⟨rfl, rfl, rfl, rfl, rfl⟩, rfl⟩
  | succ n ih =>
    obtain ⟨q, before, hq⟩ := ih (by omega)
    have room : q.tick < 89340 := by rw [before.tick]; omega
    obtain ⟨r, last, hr⟩ := ppuTick_of_nmi_off (s := s.setPpu q) room (before.ctrl ▸ hc)
    exact ⟨r, before.trans last, by rw [Function.iterate_succ_apply', hq, hr]; rfl⟩

/-! ### The steps of a Reset -/

theorem stepN_succ {s t : State} (n : Nat) (h : step s = .next t) : stepN (n + 1) s = stepN n t := by
  rw [stepN, h]

/-- The picture unit ticks on its own: a tick neither reads nor writes the counter and the cost. -/
theorem drain_iterate_ppuTicks (n : Nat) (s : State) : drain^[n] (ppuTicks s) = ppuTicks (drain^[n] s) :=
  Function.Commute.iterate_left (f := drain) (g := ppuTicks) (fun _ => rfl) n s

/-- Steps inside a cost are one drain and three ticks each (rules R29, R502, R503). -/
theorem stepN_of_cost {n : Nat} {s : State} (hs : s.refused = false) (hr : n ≤ s.remaining) :
    stepN n s = .next (ppuTicks^[n] (drain^[n] s)) := by
  induction n generalizing s with
  | zero => rfl
  | succ n ih =>
    have rest : n ≤ (ppuTicks (drain s)).remaining := Nat.le_sub_one_of_lt hr
    rw [stepN_succ n (step_of_cost hs (by omega)), ih (s := ppuTicks (drain s)) hs rest, drain_iterate_ppuTicks]
    rfl

/-- A Reset and the seven cycles of its cost, without the picture unit's ticks (rules R501, R502). -/
def resetDone (s : State) : State := drain^[7] (resetSequence s)

theorem resetDone_eq (s : State) :
    resetDone s = { s with
      sp := s.sp - 3
      flags := { s.flags with i := true }
      pc := word16 (s.cart.getCpuAt 0xFFFD) (s.cart.getCpuAt 0xFFFC)
      cycles := s.cycles + 7
      remaining := 0
      halted := false
      nmiPending := false
      resetPending := false } := by
  rw [resetDone, resetSequence_eq]
  rfl

theorem resetDone_ppu (s : State) : (resetDone s).ppu = s.ppu := by rw [resetDone_eq]

/-- A Reset at a boundary takes the seven steps of its cost, which leave the picture unit 21 ticks on. -/
theorem stepN_of_reset {s : State} (hs : s.refused = false) (hr : s.remaining = 0) (hp : s.resetPending = true) :
    stepN 7 s = .next (ppuTick^[21] (resetDone s)) := by
  have unmarked : (resetSequence s).refused = false := (resetSequence_refused s).trans hs
  have serviced := step_of_boundary hs hr (boundary_of_reset hp) unmarked
  rw [stepN_succ 6 serviced, stepN_of_cost (s := ppuTicks (drain (resetSequence s))) unmarked (Nat.le_refl 6),
    drain_iterate_ppuTicks]
  rfl

/-- Settles O11: power-on is a Reset at a boundary, at the start of a frame and with NMI off in Control. -/
theorem powerOnReachesResetVector : Obligations.PowerOnReachesResetVector := by
  intro cart init params
  have run := stepN_of_reset (s := State.powerOn cart init params) rfl rfl rfl
  have ppu : (resetDone (State.powerOn cart init params)).ppu = Ppu.powerOn init := resetDone_ppu _
  have inFrame : (Ppu.powerOn init).tick + 21 ≤ 89340 := by simp [Ppu.powerOn]
  have nmiOff : (Ppu.powerOn init).ctrl.getLsbD 7 = false := BitVec.getLsbD_zero
  have status : ({ Flags.powerOn with i := true } : Flags).pack false = 0x24 := by decide
  obtain ⟨q, ⟨tick, -, oam, ntRam, pal⟩, ticked⟩ := ppuTick_iterate_of_nmi_off (ppu ▸ inFrame) (ppu ▸ nmiOff)
  rw [ppu] at tick oam ntRam pal
  rw [ticked, resetDone_eq] at run
  exact ⟨_, run, rfl, rfl, rfl, rfl, status, rfl, rfl, rfl, rfl, rfl, rfl, rfl, rfl, tick, oam, ntRam, pal,
    word16_toNat _ _⟩

end Sys2Proof.Machine
end

section
/-! PROOF. The CPU address map (rules R54 to R60): the region of every address, and what a read and a write of each
region do. -/

namespace Sys2Proof.Machine

/-! ### The region of an address -/

theorem cpuRegion_ppuReg {a : Addr} (h : 0x2000 ≤ a.toNat) (h' : a.toNat < 0x4000) :
    cpuRegion a = .ppuReg (BitVec.ofNat 3 a.toNat) := by
  have register : a.extractLsb' 0 3 = BitVec.ofNat 3 a.toNat := BitVec.eq_of_toNat_eq (by simp)
  unfold cpuRegion
  simp only []
  rw [if_neg (by omega), if_pos h', register]

theorem cpuRegion_external {a : Addr} (h : 0x4000 ≤ a.toNat) (h' : a.toNat < 0x4018) (hd : a.toNat ≠ 0x4014) :
    cpuRegion a = .external := by
  unfold cpuRegion
  simp only []
  rw [if_neg (by omega), if_neg (by omega), if_neg hd, if_pos h']

theorem cpuRegion_undecoded {a : Addr} (h : 0x4018 ≤ a.toNat) (h' : a.toNat < 0x4020) : cpuRegion a = .undecoded := by
  unfold cpuRegion
  simp only []
  rw [if_neg (by omega), if_neg (by omega), if_neg (by omega), if_neg (by omega), if_pos h']

/-! ### What a region does -/

theorem memRead_ppuReg_region {a : Addr} {r : BitVec 3} (h : cpuRegion a = .ppuReg r) (s : State) :
    memRead a s = readPpuReg r s := by
  unfold memRead; rw [h]

/-- A read of `$4014` is one of the external device too (rules R57, R58). -/
theorem memRead_external {a : Addr} (h : 0x4000 ≤ a.toNat) (h' : a.toNat < 0x4018) (s : State) :
    memRead a s = (Config.externalIo s.draws, { s with draws := s.draws + 1 }) := by
  unfold memRead
  by_cases hd : a.toNat = 0x4014
  · rw [(cpuRegion_oamDma_iff a).mpr hd]; rfl
  · rw [cpuRegion_external h h' hd]; rfl

theorem memRead_undecoded {a : Addr} (h : 0x4018 ≤ a.toNat) (h' : a.toNat < 0x4020) (s : State) :
    memRead a s = (Config.cpuOpenBus, s) := by
  unfold memRead; rw [cpuRegion_undecoded h h']

theorem memWrite_ppuReg_region {a : Addr} {r : BitVec 3} (h : cpuRegion a = .ppuReg r) (v : Byte) (s : State) :
    memWrite a v s = writePpuReg r v s := by
  unfold memWrite; rw [h]

theorem memWrite_external_region {a : Addr} (h : cpuRegion a = .external) (v : Byte) (s : State) :
    memWrite a v s = s := by
  unfold memWrite; rw [h]

theorem memWrite_undecoded_region {a : Addr} (h : cpuRegion a = .undecoded) (v : Byte) (s : State) :
    memWrite a v s = s := by
  unfold memWrite; rw [h]

theorem memWrite_oamDma_region {a : Addr} (h : cpuRegion a = .oamDma) (v : Byte) (s : State) :
    memWrite a v s = oamDma v s := by
  unfold memWrite; rw [h]

theorem memWrite_cart_region {a : Addr} (h : cpuRegion a = .cartridge) (v : Byte) (s : State) :
    memWrite a v s = s.setCart (s.cart.setCpuAt a v) := by
  unfold memWrite; rw [h]

/-- Settles O49: the seven ranges of the decoder, each with the read and the write of its region. -/
theorem cpuAddressMap : Obligations.CpuAddressMap := by
  intro a v s
  refine ⟨fun h => ?_, fun h h' => ?_, fun h h' => memRead_external h h' s, fun h h' hd => ?_, fun hd => ?_,
    fun h h' => ?_, fun h => ?_⟩
  · have hr := cpuRegion_ram h
    exact ⟨memRead_ram_region hr s, memWrite_ram_region hr v s⟩
  · have hr := cpuRegion_ppuReg h h'
    exact ⟨memRead_ppuReg_region hr s, memWrite_ppuReg_region hr v s⟩
  · exact memWrite_external_region (cpuRegion_external h h' hd) v s
  · exact memWrite_oamDma_region ((cpuRegion_oamDma_iff a).mpr hd) v s
  · exact ⟨memRead_undecoded h h' s, memWrite_undecoded_region (cpuRegion_undecoded h h') v s⟩
  · have hr := cpuRegion_cart h
    exact ⟨memRead_cart_region hr s, memWrite_cart_region hr v s⟩

end Sys2Proof.Machine
end

section
/-! PROOF. OAM DMA (rule R87): the copy as 256 reads and stores, and what it leaves of the rest of the machine where the
page's reads change no more than the draw counter. -/

namespace Sys2Proof.Machine

/-! ### The copy, step by step -/

/-- The state after the first `n` bytes of the copy of page `v`. -/
def dmaSteps (v : Byte) (s : State) (n : Nat) : State := (List.range n).foldl (dmaByte v) s

theorem oamDma_eq_dmaSteps (v : Byte) (s : State) : oamDma v s = dmaSteps v s 256 := rfl

theorem dmaSteps_zero (v : Byte) (s : State) : dmaSteps v s 0 = s := rfl

theorem dmaSteps_succ (v : Byte) (s : State) (n : Nat) : dmaSteps v s (n + 1) = dmaByte v (dmaSteps v s n) n := by
  rw [dmaSteps, List.range_succ, List.foldl_append]
  rfl

/-! ### What reaches OAM -/

/-- OAM after the first `n` of `bytes` were stored from cell `start` on, wrapping at 256. -/
def copyOam (start : Byte) (bytes : Nat → Byte) (m : Memory 8) : Nat → Memory 8
  | 0 => m
  | n + 1 => (copyOam start bytes m n).write ((start.toNat + n) % 256) (bytes n)

theorem copyOam_wf {m : Memory 8} (h : m.wf 256 = true) (start : Byte) (bytes : Nat → Byte) (n : Nat) :
    (copyOam start bytes m n).wf 256 = true := by
  induction n with
  | zero => exact h
  | succ n ih => exact Memory.wf_write ih (Nat.mod_lt _ (by decide))

/-- The 256 cells are distinct, so each keeps the byte stored in it. -/
theorem read_copyOam {m : Memory 8} (h : m.wf 256 = true) (start : Byte) (bytes : Nat → Byte) {n i : Nat} (hi : i < n)
    (hn : n ≤ 256) : (copyOam start bytes m n).read ((start.toNat + i) % 256) = bytes i := by
  induction n with
  | zero => omega
  | succ n ih =>
    have wf := copyOam_wf h start bytes n
    rcases Nat.lt_succ_iff_lt_or_eq.mp hi with earlier | rfl
    · rw [copyOam, Memory.read_write_of_ne _ (by omega) wf]
      exact ih earlier (by omega)
    · exact Memory.read_write_self _ _ wf

/-! ### A page whose reads change no more than the draw counter -/

/-- The machine with `n` in the draw counter and `m` in OAM: all that the copy of a page outside the picture unit's
registers changes. -/
def State.withOam (s : State) (n : Nat) (m : Memory 8) : State :=
  { s with draws := n, ppu := { s.ppu with oam := m } }

@[simp] theorem State.withOam_oam (s : State) (n : Nat) (m : Memory 8) : (s.withOam n m).ppu.oam = m := rfl

/-- The `i`-th read of page `v` gives `bytes i` and moves the draw counter from `draws i` to `draws (i + 1)`, whatever
the bytes before it left in OAM. -/
def DmaReads (s : State) (v : Byte) (bytes : Nat → Byte) (draws : Nat → Nat) : Prop :=
  ∀ i < 256, ∀ m : Memory 8,
    memRead (BitVec.ofNat 16 (256 * v.toNat + i)) (s.withOam (draws i) m) = (bytes i, s.withOam (draws (i + 1)) m)

theorem dmaSteps_of_reads {s : State} {v : Byte} {bytes : Nat → Byte} {draws : Nat → Nat}
    (h : DmaReads s v bytes draws) (h0 : draws 0 = s.draws) {n : Nat} (hn : n ≤ 256) :
    dmaSteps v s n = s.withOam (draws n) (copyOam s.ppu.oamAddr bytes s.ppu.oam n) := by
  induction n with
  | zero => rw [h0]; rfl
  | succ n ih =>
    rw [dmaSteps_succ, ih (by omega), dmaByte_eq _ _ (by omega), h n (by omega)]
    rfl

/-- The copy of such a page: OAM holds its bytes, and the draw counter is all else that moved. -/
theorem oamDma_of_reads {s : State} {v : Byte} {bytes : Nat → Byte} {draws : Nat → Nat}
    (h : DmaReads s v bytes draws) (h0 : draws 0 = s.draws) (hs : s.wf = true) :
    (∀ i < 256, (oamDma v s).ppu.oam.read ((s.ppu.oamAddr.toNat + i) % 256) = bytes i) ∧
      oamDma v s = s.withOam (draws 256) (oamDma v s).ppu.oam := by
  have copied : oamDma v s = s.withOam (draws 256) (copyOam s.ppu.oamAddr bytes s.ppu.oam 256) := by
    rw [oamDma_eq_dmaSteps, dmaSteps_of_reads h h0 (Nat.le_refl 256)]
  have oam : (oamDma v s).ppu.oam = copyOam s.ppu.oamAddr bytes s.ppu.oam 256 := by rw [copied, State.withOam_oam]
  have wf : s.ppu.oam.wf 256 = true := (Ppu.wf_iff.mp (State.wf_iff.mp hs).2.2).2.1
  rw [oam]
  exact ⟨fun i hi => read_copyOam wf _ _ hi (Nat.le_refl 256), copied⟩

/-! ### The pages -/

theorem dmaAddr_toNat (v : Byte) {i : Nat} (hi : i < 256) :
    (BitVec.ofNat 16 (256 * v.toNat + i)).toNat = 256 * v.toNat + i := by
  have := v.isLt
  rw [BitVec.toNat_ofNat, Nat.mod_eq_of_lt (by omega)]

/-- A page of internal RAM, mirrored every 2 KiB (rule R55). -/
theorem dmaReads_ram {v : Byte} (hv : v.toNat < 0x20) (s : State) :
    DmaReads s v (fun i => s.ram.read ((256 * v.toNat + i) % 2048)) (fun _ => s.draws) := by
  intro i hi m
  have ha := dmaAddr_toNat v hi
  rw [memRead_ram_region (cpuRegion_ram (by omega)), ha]
  rfl

/-- A page of cartridge space (rule R60). -/
theorem dmaReads_cart {v : Byte} (hv : 0x41 ≤ v.toNat) (s : State) :
    DmaReads s v (fun i => s.cart.getCpuAt (BitVec.ofNat 16 (256 * v.toNat + i))) (fun _ => s.draws) := by
  intro i hi m
  have ha := dmaAddr_toNat v hi
  exact memRead_cart_region (cpuRegion_cart (by omega)) _

/-- Page `$40`: the external device, whose reads draw, the undecoded range and cartridge space (rules R57 to R60). -/
theorem dmaReads_page40 {v : Byte} (hv : v.toNat = 0x40) (s : State) :
    DmaReads s v (fun i =>
      if i < 0x18 then Config.externalIo (s.draws + i)
      else if i < 0x20 then Config.cpuOpenBus
      else s.cart.getCpuAt (BitVec.ofNat 16 (0x4000 + i))) (fun i => s.draws + min i 0x18) := by
  intro i hi m
  have ha := dmaAddr_toNat v hi
  rw [hv] at ha ⊢
  simp only []
  rcases Nat.lt_or_ge i 0x18 with external | h18
  · have draw : min i 0x18 = i := by omega
    have next : min (i + 1) 0x18 = i + 1 := by omega
    rw [memRead_external (by omega) (by omega), if_pos external, draw, next]
    rfl
  · have noDraw : min (i + 1) 0x18 = min i 0x18 := by omega
    rw [if_neg (by omega), noDraw]
    rcases Nat.lt_or_ge i 0x20 with undecoded | h20
    · rw [memRead_undecoded (by omega) (by omega), if_pos undecoded]
    · rw [memRead_cart_region (cpuRegion_cart (by omega)), if_neg (by omega)]
      rfl

/-- Settles O53: the copy is the fold of its steps, and each kind of page says what its reads give. -/
theorem oamDmaCopiesPage : Obligations.OamDmaCopiesPage := by
  refine ⟨fun s v => ⟨dmaSteps v s, dmaSteps_zero v s, oamDma_eq_dmaSteps v s, fun i hi => ?_⟩,
    fun s v hs => ⟨fun hv => ?_, fun hv => ?_, fun hv => ?_⟩⟩
  · rw [dmaSteps_succ]
    exact dmaByte_eq v _ hi
  · exact oamDma_of_reads (dmaReads_ram hv s) rfl hs
  · exact oamDma_of_reads (dmaReads_cart hv s) rfl hs
  · exact oamDma_of_reads (dmaReads_page40 hv s) rfl hs

end Sys2Proof.Machine
end

section
/-! PROOF. The cartridge mapper (rules R70 to R79, R90 to R93): the address decode of a cartridge, the banks of both
variants as numbers, and the loading of the serial registers. -/

namespace Sys2Proof.Machine

/-! ### Fields of a word as numbers -/

theorem getLsbD_eq_decide {w : Nat} (x : BitVec w) (i : Nat) : x.getLsbD i = decide (x.toNat / 2 ^ i % 2 = 1) :=
  Nat.testBit_eq_decide_div_mod_eq

/-- The field of bits `i + 1` and `i`. -/
theorem twoBits_eq {w : Nat} (x : BitVec w) (i : Nat) :
    x.toNat / 2 ^ i % 4 = 2 * (x.getLsbD (i + 1)).toNat + (x.getLsbD i).toNat := by
  simp only [← BitVec.testBit_toNat, Nat.toNat_testBit, Nat.pow_succ, ← Nat.div_div_eq_div_mul]
  omega

/-! ### What a cartridge-space address reaches -/

theorem Cartridge.region_prg {a : Addr} (h : 0x8000 ≤ a.toNat) (c : Cartridge) : c.region a = .prg (c.prgOffset a) :=
  if_pos h

theorem Cartridge.region_wram {c : Cartridge} {a : Addr} (h : 0x6000 ≤ a.toNat) (h' : a.toNat < 0x8000)
    (hw : c.hasWram = true) : c.region a = .wram (a.toNat - 0x6000) := by
  have offset : a.toNat % 8192 = a.toNat - 0x6000 := by omega
  rw [Cartridge.region, if_neg (by omega), if_pos ⟨h, hw⟩, offset]

theorem Cartridge.region_undecoded {c : Cartridge} {a : Addr} (h : a.toNat < 0x8000)
    (hw : a.toNat < 0x6000 ∨ c.hasWram = false) : c.region a = .undecoded := by
  have noWram : ¬(0x6000 ≤ a.toNat ∧ c.hasWram = true) := by
    rintro ⟨h6, ht⟩
    rcases hw with hlt | hf
    · omega
    · exact Bool.noConfusion (hf.symm.trans ht)
  rw [Cartridge.region, if_neg (by omega), if_neg noWram]

theorem Cartridge.getCpuAt_prg {a : Addr} (h : 0x8000 ≤ a.toNat) (c : Cartridge) :
    c.getCpuAt a = c.prg.read (16384 * (c.translateCpu a).1 + (c.translateCpu a).2) := by
  rw [Cartridge.getCpuAt, Cartridge.region_prg h, Cartridge.prgOffset, Nat.mul_comm]

theorem Cartridge.wram_access {c : Cartridge} {a : Addr} (h : 0x6000 ≤ a.toNat) (h' : a.toNat < 0x8000)
    (hw : c.hasWram = true) (v : Byte) :
    c.getCpuAt a = c.wram.read (a.toNat - 0x6000) ∧
      c.setCpuAt a v = { c with wram := c.wram.write (a.toNat - 0x6000) v } := by
  rw [Cartridge.getCpuAt, Cartridge.setCpuAt, Cartridge.region_wram h h' hw]
  exact ⟨rfl, rfl⟩

theorem Cartridge.undecoded_access {c : Cartridge} {a : Addr} (h : a.toNat < 0x8000)
    (hw : a.toNat < 0x6000 ∨ c.hasWram = false) (v : Byte) :
    c.getCpuAt a = Config.cpuOpenBus ∧ c.setCpuAt a v = c := by
  rw [Cartridge.getCpuAt, Cartridge.setCpuAt, Cartridge.region_undecoded h hw]
  exact ⟨rfl, rfl⟩

/-! ### Variant 0 -/

theorem Cartridge.translateCpu_variant0 {c : Cartridge} (hm : c.mapper = .variant0) (a : Addr) :
    c.translateCpu a = (a.toNat / 16384 % 2 % c.prgPages, a.toNat % 16384) := by
  have bank : (if a.getLsbD 14 then 1 else 0) = a.toNat / 16384 % 2 := by
    simp only [getLsbD_eq_decide, decide_eq_true_eq]
    split <;> omega
  simp only [Cartridge.translateCpu, Cartridge.prgBankAt, hm, bank, BitVec.extractLsb'_toNat, Nat.shiftRight_zero]

/-- Variant 0 has no registers: a write to a PRG bank is ignored (rule R75). -/
theorem Cartridge.setCpuAt_variant0 {c : Cartridge} (hm : c.mapper = .variant0) {a : Addr} (h : 0x8000 ≤ a.toNat)
    (v : Byte) : c.setCpuAt a v = c := by
  rw [Cartridge.setCpuAt, Cartridge.region_prg h, hm]

theorem Cartridge.hasWram_variant0 {c : Cartridge} (hm : c.mapper = .variant0) : c.hasWram = c.mapper0Wram := by
  rw [Cartridge.hasWram, hm]

/-- Settles O50: the decode of the cartridge's address space, with variant 0's banks as numbers. -/
theorem mapperZero : Obligations.MapperZero := by
  intro c a v p hm
  refine ⟨fun h => ⟨Cartridge.translateCpu_variant0 hm a, ?_, Cartridge.setCpuAt_variant0 hm h v⟩, fun h h' hw => ?_,
    fun _ h hw => ?_, fun n hp hn => ?_, fun h => ?_, ?_⟩
  · rw [Cartridge.getCpuAt_prg h, Cartridge.translateCpu_variant0 hm]
  · exact Cartridge.wram_access h h' (by rw [Cartridge.hasWram_variant0 hm, hw]) v
  · exact Cartridge.undecoded_access h (by rwa [Cartridge.hasWram_variant0 hm]) v
  · have address : (BitVec.ofNat 16 (0xC000 + n)).toNat = 0xC000 + n := by
      rw [BitVec.toNat_ofNat, Nat.mod_eq_of_lt (by omega)]
    rw [Cartridge.translateCpu_variant0 hm, address, hp]
    exact Prod.ext (by simp only []; omega) (by simp only []; omega)
  · have offset : c.chrOffset p = p.toNat := by rw [chrOffset_variant0 hm, Nat.mod_eq_of_lt h]
    refine ⟨?_, by rw [Cartridge.getPpuAt, offset], by rw [Cartridge.setPpuAt, offset]⟩
    rw [Cartridge.translatePpu, hm]
    simp only [BitVec.extractLsb'_toNat, Nat.shiftRight_zero]
  · rw [Cartridge.mirroring, hm]

/-! ### Variant 1: its registers -/

/-- A bit entering the shift register at the top (rule R79). -/
def shiftIn (b : Bool) (r : BitVec 5) : BitVec 5 := BitVec.ofBool b ++ r.extractLsb' 1 4

theorem shiftIn_toNat (b : Bool) (r : BitVec 5) : (shiftIn b r).toNat = 16 * b.toNat + r.toNat / 2 := by
  revert b r
  decide

/-- After five bits nothing of the register's former content is left, and the first bit is the lowest. -/
theorem shiftIn_five (b0 b1 b2 b3 b4 : Bool) (r : BitVec 5) :
    shiftIn b4 (shiftIn b3 (shiftIn b2 (shiftIn b1 (shiftIn b0 r)))) =
      BitVec.ofNat 5 (b0.toNat + 2 * b1.toNat + 4 * b2.toNat + 8 * b3.toNat + 16 * b4.toNat) := by
  apply BitVec.eq_of_toNat_eq
  have := b0.toNat_le; have := b1.toNat_le; have := b2.toNat_le; have := b3.toNat_le; have := b4.toNat_le
  have := r.isLt
  simp only [shiftIn_toNat, BitVec.toNat_ofNat]
  omega

/-- Bit 0 of the value is the bit that enters. -/
theorem shiftIn_eq (v : Byte) (r : BitVec 5) :
    (v.extractLsb' 0 1 ++ r.extractLsb' 1 4 : BitVec 5) = shiftIn (v.getLsbD 0) r := by
  have bit0 : v.extractLsb' 0 1 = BitVec.ofBool (v.getLsbD 0) := by
    ext i hi
    obtain rfl : i = 0 := by omega
    simp
  rw [shiftIn, bit0]

/-- The cartridge with one more bit in its shift register. -/
def Cartridge.shifted (c : Cartridge) (b : Bool) : Cartridge :=
  { c with shift := shiftIn b c.shift, shiftCount := c.shiftCount + 1 }

@[simp] theorem Cartridge.shifted_mapper (c : Cartridge) (b : Bool) : (c.shifted b).mapper = c.mapper := rfl
@[simp] theorem Cartridge.shifted_shift (c : Cartridge) (b : Bool) : (c.shifted b).shift = shiftIn b c.shift := rfl
@[simp] theorem Cartridge.shifted_shiftCount (c : Cartridge) (b : Bool) :
    (c.shifted b).shiftCount = c.shiftCount + 1 := rfl

/-- The cartridge with its shift register empty; that it then holds 0 is log entry 15. -/
def Cartridge.emptied (c : Cartridge) : Cartridge := { c with shift := 0, shiftCount := 0 }

@[simp] theorem Cartridge.shifted_emptied (c : Cartridge) (b : Bool) : (c.shifted b).emptied = c.emptied := rfl

section SerialWrite

variable {c : Cartridge} {a : Addr} {v : Byte} (hm : c.mapper = .serial) (h : 0x8000 ≤ a.toNat)

include hm h

theorem Cartridge.setCpuAt_serial : c.setCpuAt a v = c.serialWrite a v := by
  rw [Cartridge.setCpuAt, Cartridge.region_prg h, hm]

theorem Cartridge.setCpuAt_reset (hv : v.getLsbD 7 = true) :
    c.setCpuAt a v = { c.emptied with control := c.control ||| 0x0C } := by
  rw [Cartridge.setCpuAt_serial hm h]
  exact if_pos hv

theorem Cartridge.setCpuAt_shift (hv : v.getLsbD 7 = false) (hn : c.shiftCount < 4) :
    c.setCpuAt a v = c.shifted (v.getLsbD 0) := by
  have notFull : c.shiftCount + 1 ≠ 5 := by omega
  simp only [Cartridge.setCpuAt_serial hm h, Cartridge.serialWrite, bit, hv, notFull, shiftIn_eq, if_false,
    Bool.false_eq_true]
  rfl

theorem Cartridge.setCpuAt_fifth (hv : v.getLsbD 7 = false) (hn : c.shiftCount = 4) :
    c.setCpuAt a v = c.emptied.commit a (shiftIn (v.getLsbD 0) c.shift) := by
  simp only [Cartridge.setCpuAt_serial hm h, Cartridge.serialWrite, bit, hv, hn, shiftIn_eq, if_true, if_false,
    Bool.false_eq_true]
  rfl

end SerialWrite

/-- The register a fifth write loads, by bits 14:13 of its address as a number (rule R79). -/
theorem Cartridge.commit_eq (c : Cartridge) (a : Addr) (value : BitVec 5) :
    c.commit a value =
      match a.toNat / 8192 % 4 with
      | 0 => { c with control := value }
      | 1 => { c with chrBank0 := value }
      | 2 => { c with chrBank1 := value }
      | _ => { c with prgBank := value } := by
  have bits : a.toNat / 8192 % 4 = 2 * (a.getLsbD 14).toNat + (a.getLsbD 13).toNat := twoBits_eq a 13
  rw [bits, Cartridge.commit]
  cases a.getLsbD 14 <;> cases a.getLsbD 13 <;> rfl

/-- Settles O51: four writes shift, the fifth loads what five shifts make. -/
theorem serialRegisterLoad : Obligations.SerialRegisterLoad := by
  intro c a0 a1 a2 a3 a4 v0 v1 v2 v3 v4 hm h0 h1 h2 h3 h4
  refine ⟨Cartridge.setCpuAt_reset hm h0, fun hc n0 n1 n2 n3 n4 => ?_⟩
  simp only []
  rw [Cartridge.setCpuAt_shift hm h0 n0 (by simp [hc]), Cartridge.setCpuAt_shift (by simpa) h1 n1 (by simp [hc]),
    Cartridge.setCpuAt_shift (by simpa) h2 n2 (by simp [hc]), Cartridge.setCpuAt_shift (by simpa) h3 n3 (by simp [hc]),
    Cartridge.setCpuAt_fifth (by simpa) h4 n4 (by simp [hc])]
  simp only [Cartridge.shifted_emptied, Cartridge.shifted_shift, shiftIn_five]
  exact Cartridge.commit_eq _ _ _

/-! ### Variant 1: its banks -/

/-- A PRG address is in the upper bank when its bit 14 is set (rule R91). -/
theorem getLsbD_14_of_prg {a : Addr} (h : 0x8000 ≤ a.toNat) : a.getLsbD 14 = decide (0xC000 ≤ a.toNat) := by
  rw [getLsbD_eq_decide, decide_eq_decide]
  omega

/-- A pattern address is in the upper bank when its bit 12 is set (rule R92). -/
theorem getLsbD_12_of_pattern {p : BitVec 14} (h : p.toNat < 0x2000) : p.getLsbD 12 = decide (0x1000 ≤ p.toNat) := by
  rw [getLsbD_eq_decide, decide_eq_decide]
  omega

/-- Variant 1's PRG bank by control bits 3:2 as a number (rules R90, R91). -/
theorem Cartridge.prgBankAt_serial {c : Cartridge} (hm : c.mapper = .serial) {a : Addr} (h : 0x8000 ≤ a.toNat) :
    c.prgBankAt a =
      let n := c.prgBank.toNat % 16
      let upper := decide (0xC000 ≤ a.toNat)
      match c.control.toNat / 4 % 4 with
      | 2 => if upper then n % c.prgPages else 0
      | 3 => if upper then c.prgPages - 1 else n % c.prgPages
      | _ => (if upper then n / 2 * 2 + 1 else n / 2 * 2) % c.prgPages := by
  have mode : c.control.toNat / 4 % 4 = 2 * (c.control.getLsbD 3).toNat + (c.control.getLsbD 2).toNat :=
    twoBits_eq c.control 2
  simp only [mode, Cartridge.prgBankAt, hm, getLsbD_14_of_prg h, BitVec.extractLsb'_toNat, Nat.shiftRight_zero,
    Nat.mul_comm 2]
  cases c.control.getLsbD 3 <;> cases c.control.getLsbD 2 <;> rfl

/-- Variant 1's CHR bank by control bit 4 (rules R90, R92). -/
theorem Cartridge.translatePpu_serial {c : Cartridge} (hm : c.mapper = .serial) {p : BitVec 14} (h : p.toNat < 0x2000) :
    c.translatePpu p =
      let high := decide (0x1000 ≤ p.toNat)
      (if c.control.toNat / 16 = 1 then (if high then c.chrBank1.toNat else c.chrBank0.toNat) % c.chrBanks4k
        else (if high then c.chrBank0.toNat / 2 * 2 + 1 else c.chrBank0.toNat / 2 * 2) % c.chrBanks4k,
        p.toNat % 4096) := by
  have mode : c.control.getLsbD 4 = decide (c.control.toNat / 16 = 1) := by
    rw [getLsbD_eq_decide, decide_eq_decide]
    omega
  simp only [Cartridge.translatePpu, hm, mode, getLsbD_12_of_pattern h, BitVec.extractLsb'_toNat, Nat.shiftRight_zero,
    Nat.mul_comm 2, decide_eq_true_eq]
  split_ifs <;> rfl

theorem Cartridge.chrOffset_serial {c : Cartridge} (hm : c.mapper = .serial) (p : BitVec 14) :
    c.chrOffset p = 4096 * (c.translatePpu p).1 + (c.translatePpu p).2 := by
  rw [Cartridge.chrOffset, Cartridge.chrBankSize, hm, Nat.mul_comm]

/-- Variant 1's mirroring by control bits 1:0 as a number (rule R90). -/
theorem Cartridge.mirroring_serial {c : Cartridge} (hm : c.mapper = .serial) :
    c.mirroring =
      match c.control.toNat % 4 with
      | 0 => .singleLower
      | 1 => .singleUpper
      | 2 => .vertical
      | _ => .horizontal := by
  have bits : c.control.toNat % 4 = 2 * (c.control.getLsbD 1).toNat + (c.control.getLsbD 0).toNat := by
    simpa using twoBits_eq c.control 0
  rw [bits, Cartridge.mirroring, hm]
  cases c.control.getLsbD 1 <;> cases c.control.getLsbD 0 <;> rfl

/-- Settles O52: the decode of the cartridge's address space, with variant 1's banks as numbers. -/
theorem serialBanks : Obligations.SerialBanks := by
  intro c a v p hm q n upper k high bank chrBank
  have hw : c.hasWram = true := by rw [Cartridge.hasWram, hm]
  refine ⟨fun h => ?_, fun h h' => Cartridge.wram_access h h' hw v,
    fun _ h => Cartridge.undecoded_access (by omega) (.inl h) v, fun h => ?_, Cartridge.mirroring_serial hm⟩
  · have translated : c.translateCpu a = (bank, a.toNat % 16384) :=
      Prod.ext (Cartridge.prgBankAt_serial hm h) (by simp [Cartridge.translateCpu])
    exact ⟨translated, by rw [Cartridge.getCpuAt_prg h, translated]⟩
  · have translated : c.translatePpu p = (chrBank, p.toNat % 4096) := Cartridge.translatePpu_serial hm h
    have offset : c.chrOffset p = 4096 * chrBank + p.toNat % 4096 := by
      rw [Cartridge.chrOffset_serial hm, translated]
    exact ⟨translated, by rw [Cartridge.getPpuAt, offset], by rw [Cartridge.setPpuAt, offset]⟩

end Sys2Proof.Machine
end

section
/-! PROOF. What the stack instructions and interrupt entry leave of memory (rules R62, R211 to R214, R220 to R223,
R307): a push stores to the cell of SP, a pull to none. -/

namespace Sys2Proof.Machine

/-! ### Cells -/

/-- The cells are those of RAM, the cartridge and the picture unit. -/
theorem State.cell_congr {s t : State} (hr : t.ram = s.ram) (hc : t.cart = s.cart) (hp : t.ppu = s.ppu) (c : Cell) :
    t.cell c = s.cell c := by
  unfold State.cell
  rw [hr, hc, hp]

/-- What an instruction without an operand does to a cell, its effect does. -/
theorem impliedInstr_cell {op : Byte} {effect : State → State} {s t : State} (h : impliedInstr op effect s = .next t)
    (c : Cell) : t.cell c = (effect (s.advance op)).cell c := by
  cases h
  exact State.cell_congr rfl rfl rfl c

/-! ### Pushes -/

theorem push_cell {s : State} (hs : s.wf = true) (v : Byte) {c : Cell} (hc : c ≠ .ram (stackCell s.sp)) :
    (push v s).cell c = s.cell c := by
  rw [push_eq]
  cases c with
  | ram k => exact Memory.read_write_of_ne v (fun e => hc (congrArg Cell.ram e)) (State.wf_iff.mp hs).1
  | _ => rfl

@[simp] theorem push_sp (v : Byte) (s : State) : (push v s).sp = s.sp - 1 := by rw [push_eq]

theorem push16_cell {s : State} (hs : s.wf = true) (w : Addr) {c : Cell} (h0 : c ≠ .ram (stackCell s.sp))
    (h1 : c ≠ .ram (stackCell (s.sp - 1))) : (push16 w s).cell c = s.cell c := by
  have hs' := (Keeps.push (hiByte w) s).wf hs
  rw [push16, push_cell hs' _ (by rwa [push_sp]), push_cell hs _ h0]

section Entry

variable {vector : Addr} (hv : cpuRegion vector = .cartridge) (hv' : cpuRegion (vector + 1) = .cartridge) {s : State}
  (hs : s.wf = true) {c : Cell} (h0 : c ≠ .ram (stackCell s.sp)) (h1 : c ≠ .ram (stackCell (s.sp - 1)))
  (h2 : c ≠ .ram (stackCell (s.sp - 2)))

include hv hv' hs h0 h1 h2

/-- Taking an interrupt pushes three bytes, and reads its vector from cartridge space, which stores nothing. -/
theorem enterInterrupt_cell (ret : Addr) (b : Bool) : (enterInterrupt ret b vector s).cell c = s.cell c := by
  have hs' := (Keeps.push16 ret s).wf hs
  have sp : (push16 ret s).sp = s.sp - 2 := by rw [push16_eq]
  have status : (push ((push16 ret s).flags.pack b) (push16 ret s)).cell c = (push16 ret s).cell c :=
    push_cell hs' _ (by rwa [sp])
  rw [← push16_cell hs ret h0 h1, ← status, enterInterrupt]
  simp only [read16_cart hv hv']
  exact State.cell_congr rfl rfl rfl c

theorem interruptEntry_cell : (interruptEntry vector s).cell c = s.cell c :=
  (State.cell_congr (s := enterInterrupt s.pc false vector s) rfl rfl rfl c).trans
    (enterInterrupt_cell hv hv' hs h0 h1 h2 s.pc false)

end Entry

/-! ### Pulls -/

@[simp] theorem pull_cell (s : State) (c : Cell) : (pull s).2.cell c = s.cell c := by
  rw [pull_eq]
  exact State.cell_congr rfl rfl rfl c

@[simp] theorem pull16_cell (s : State) (c : Cell) : (pull16 s).2.cell c = s.cell c := by
  rw [pull16_eq]
  exact State.cell_congr rfl rfl rfl c

theorem plaEffect_cell (s : State) (c : Cell) : (plaEffect s).cell c = s.cell c :=
  (State.cell_congr (s := (pull s).2) rfl rfl rfl c).trans (pull_cell s c)

theorem plpEffect_cell (s : State) (c : Cell) : (plpEffect s).cell c = s.cell c :=
  (State.cell_congr (s := (pull s).2) rfl rfl rfl c).trans (pull_cell s c)

theorem rtsEffect_cell (s : State) (c : Cell) : (rtsEffect s).cell c = s.cell c :=
  (State.cell_congr (s := (pull16 s).2) rfl rfl rfl c).trans (pull16_cell s c)

theorem rtiEffect_cell (s : State) (c : Cell) : (rtiEffect s).cell c = s.cell c := by
  have status : ((pull s).2.setFlags (Flags.unpack (pull s).1)).cell c = s.cell c :=
    (State.cell_congr (s := (pull s).2) rfl rfl rfl c).trans (pull_cell s c)
  exact (State.cell_congr rfl rfl rfl c).trans ((pull16_cell _ c).trans status)

/-- Settles O47: each instruction is an effect after PC moved on, and each effect is its pushes or pulls. -/
theorem stackFrame : Obligations.StackFrame := by
  intro s hs
  have advanced (op : Byte) : (s.advance op).wf = true := (Keeps.advance s op).wf hs
  have advance_cell (op : Byte) (c : Cell) : (s.advance op).cell c = s.cell c := State.cell_congr rfl rfl rfl c
  refine ⟨fun i t hi h c h0 => ?_, fun w t h c h0 h1 => ?_, fun t h c h0 h1 h2 => ?_, fun i t hi h c => ?_⟩
  · simp only [List.mem_cons, List.not_mem_nil, or_false] at hi
    rcases hi with rfl | rfl
    · rw [impliedInstr_cell (op := 0x48) (effect := phaEffect) h, phaEffect, push_cell (advanced _) _ h0, advance_cell]
    · rw [impliedInstr_cell (op := 0x08) (effect := phpEffect) h, phpEffect, push_cell (advanced _) _ h0, advance_cell]
  · have pushed := push16_cell (advanced 0x20) ((s.advance 0x20).pc - 1) h0 h1
    rw [impliedInstr_cell (op := 0x20) (effect := jsrEffect w) h, ← advance_cell 0x20, ← pushed]
    exact State.cell_congr rfl rfl rfl c
  · rcases h with h | rfl | rfl
    · rw [impliedInstr_cell (op := 0x00) (effect := brkEffect) h, brkEffect,
        enterInterrupt_cell (by decide) (by decide) (advanced _) h0 h1 h2, advance_cell]
    · exact (interruptEntry_cell (by decide) (by decide) (s := { s with nmiPending := false }) hs h0 h1 h2).trans
        (State.cell_congr rfl rfl rfl c)
    · exact interruptEntry_cell (by decide) (by decide) hs h0 h1 h2
  · simp only [List.mem_cons, List.not_mem_nil, or_false] at hi
    rcases hi with rfl | rfl | rfl | rfl
    · rw [impliedInstr_cell (op := 0x68) (effect := plaEffect) h, plaEffect_cell, advance_cell]
    · rw [impliedInstr_cell (op := 0x28) (effect := plpEffect) h, plpEffect_cell, advance_cell]
    · rw [impliedInstr_cell (op := 0x60) (effect := rtsEffect) h, rtsEffect_cell, advance_cell]
    · rw [impliedInstr_cell (op := 0x40) (effect := rtiEffect) h, rtiEffect_cell, advance_cell]

end Sys2Proof.Machine
end

section
/-! PROOF. The encoding (rules R100 to R104): an instruction's bytes are its opcode byte and the bytes of its operand,
and every instruction is what its row of the table reads from its own operand bytes; both round trips of the decoder
follow from these two facts. -/

namespace Sys2Proof

/-! ### The bytes of an operand -/

/-- The operand bytes of an instruction in memory order, a word low byte first (rules R51, R102). -/
def Operand.bytes : Operand → List Byte
  | .implied | .accumulator => []
  | .immediate b | .relative b => [b]
  | .memory (.zeroPage b) | .memory (.zeroPageX b) | .memory (.zeroPageY b) => [b]
  | .memory (.indexedIndirect b) | .memory (.indirectIndexed b) => [b]
  | .indirect w => [loByte w, hiByte w]
  | .memory (.absolute w) | .memory (.absoluteX w) | .memory (.absoluteY w) => [loByte w, hiByte w]

/-- A mode of length `n` reads the first `n - 1` of the bytes after the opcode (rules R101, R102). -/
theorem cons_bytes_ofBytes (mode : Mode) (op b1 b2 : Byte) :
    op :: (Operand.ofBytes mode b1 b2).bytes = [op, b1, b2].take mode.length := by
  cases mode <;> simp [Operand.ofBytes, Operand.bytes, Mode.length]

/-! ### The opcode table -/

/-- Whatever holds of each of the 256 table entries holds of the row of every opcode byte. -/
theorem opcodeRow_of_table {P : Row → Prop} (h : ∀ block ∈ opcodeBlocks, ∀ r ∈ block, P r) (op : Byte) :
    P (opcodeRow op) :=
  h _ (List.getElem_mem _) _ (List.getElem_mem _)

/-- The length column is the length of the row's mode (rule R101). -/
theorem opcodeRow_length (op : Byte) : (opcodeRow op).length = (opcodeRow op).mode.length :=
  opcodeRow_of_table (P := fun r => r.length = r.mode.length) (by decide) op

theorem Mode.length_cases (mode : Mode) : mode.length = 1 ∨ mode.length = 2 ∨ mode.length = 3 := by
  cases mode <;> simp [Mode.length]

theorem opcodeRow_length_cases (op : Byte) :
    (opcodeRow op).length = 1 ∨ (opcodeRow op).length = 2 ∨ (opcodeRow op).length = 3 :=
  opcodeRow_length op ▸ Mode.length_cases _

theorem opcodeTable_getElem? (op : Byte) : opcodeTable[op.toNat]? = some (opcodeRow op) := by
  revert op; decide +kernel

/-! ### Rows as instructions, instructions as rows -/

/-- What each row of the table makes of two bytes encodes as its opcode byte and the bytes of its operand. -/
theorem encode_decodeOp_operand (op b1 b2 : Byte) :
    encode (decodeOp op b1 b2) = op :: (Operand.ofBytes (opcodeRow op).mode b1 b2).bytes := by
  revert op
  refine Machine.forall_byte fun n hn => ?_
  interval_cases n <;> rfl

/-- The encoding of a row is as many of the three bytes as the row's length says. -/
theorem encode_decodeOp (op b1 b2 : Byte) :
    encode (decodeOp op b1 b2) = [op, b1, b2].take (opcodeRow op).length := by
  rw [encode_decodeOp_operand, cons_bytes_ofBytes, opcodeRow_length]

/-- An instruction is given back by its bytes when the row of its first byte makes it of the next two. -/
theorem decodeOp_of_encode {i : Instr} {op : Byte} {operand : List Byte} (he : encode i = op :: operand)
    (h : decodeOp op (operand.getD 0 0) (operand.getD 1 0) = i) :
    decodeOp i.opcode (i.encodedByte 1) (i.encodedByte 2) = i := by
  simpa [Instr.opcode, Instr.encodedByte, he] using h

/-- A row that reads a word makes the form of `w` from the two bytes of `w`. -/
theorem decodeOp_word {op : Byte} {form : Addr → Instr} (h : ∀ b1 b2, decodeOp op b1 b2 = form (word16 b2 b1))
    (w : Addr) : decodeOp op (loByte w) (hiByte w) = form w := by
  rw [h, word16_hi_lo]

/-- The rows that share a form which carries their opcode byte. -/
theorem decodeOp_shared {ops : List Byte} {form : Byte → Instr} {op b1 b2 : Byte}
    (rows : ops.map (decodeOp · b1 b2) = ops.map form) (h : decide (op ∈ ops) = true) :
    decodeOp op b1 b2 = form op :=
  List.map_inj_left.mp rows op (of_decide_eq_true h)

/-- Every instruction is what the row of its opcode byte makes of its own operand bytes. -/
theorem decodeOp_encodedBytes {i : Instr} (h : i.wellFormed = true) :
    decodeOp i.opcode (i.encodedByte 1) (i.encodedByte 2) = i := by
  cases i with
  | jam op => exact decodeOp_of_encode rfl (decodeOp_shared (form := .jam) rfl h)
  | nopImp op => exact decodeOp_of_encode rfl (decodeOp_shared (form := .nopImp) rfl h)
  | nopZp op a => exact decodeOp_of_encode rfl (decodeOp_shared (form := (.nopZp · a)) rfl h)
  | nopZpX op a => exact decodeOp_of_encode rfl (decodeOp_shared (form := (.nopZpX · a)) rfl h)
  | nopImm op m => exact decodeOp_of_encode rfl (decodeOp_shared (form := (.nopImm · m)) rfl h)
  | ancImm op m => exact decodeOp_of_encode rfl (decodeOp_shared (form := (.ancImm · m)) rfl h)
  | nopAbsX op w =>
    exact decodeOp_of_encode rfl (decodeOp_word (fun _ _ => decodeOp_shared (form := (.nopAbsX · _)) rfl h) w)
  | nopAbs w | jsrAbs w | jmpAbs w | jmpInd w
  | oraAbs w | oraAbsX w | oraAbsY w | andAbs w | andAbsX w | andAbsY w | eorAbs w | eorAbsX w | eorAbsY w
  | adcAbs w | adcAbsX w | adcAbsY w | sbcAbs w | sbcAbsX w | sbcAbsY w | cmpAbs w | cmpAbsX w | cmpAbsY w
  | bitAbs w | cpxAbs w | cpyAbs w
  | ldaAbs w | ldaAbsX w | ldaAbsY w | ldxAbs w | ldxAbsY w | ldyAbs w | ldyAbsX w
  | staAbs w | staAbsX w | staAbsY w | stxAbs w | styAbs w
  | aslAbs w | aslAbsX w | lsrAbs w | lsrAbsX w | rolAbs w | rolAbsX w | rorAbs w | rorAbsX w
  | incAbs w | incAbsX w | decAbs w | decAbsX w
  | laxAbs w | laxAbsY w | saxAbs w
  | sloAbs w | sloAbsX w | sloAbsY w | rlaAbs w | rlaAbsX w | rlaAbsY w | sreAbs w | sreAbsX w | sreAbsY w
  | rraAbs w | rraAbsX w | rraAbsY w | dcpAbs w | dcpAbsX w | dcpAbsY w | isbAbs w | isbAbsX w | isbAbsY w
  | ahxAbsY w | tasAbsY w | shyAbsX w | shxAbsY w | lasAbsY w =>
    exact decodeOp_of_encode rfl (decodeOp_word (fun _ _ => rfl) w)
  | _ => exact decodeOp_of_encode rfl rfl

/-- An instruction's encoding is as many of its opcode byte and operand bytes as its row's length says. -/
theorem encode_eq_take {i : Instr} (h : i.wellFormed = true) :
    encode i = [i.opcode, i.encodedByte 1, i.encodedByte 2].take i.row.length := by
  rw [Instr.row, ← encode_decodeOp, decodeOp_encodedBytes h]

@[simp] theorem opcode_decodeOp (op b1 b2 : Byte) : (decodeOp op b1 b2).opcode = op := by
  rw [Instr.opcode, encode_decodeOp_operand]; rfl

theorem encode_length {i : Instr} (h : i.wellFormed = true) : (encode i).length = i.row.length := by
  rw [encode_eq_take h, Instr.row]
  rcases opcodeRow_length_cases i.opcode with hl | hl | hl <;> simp [hl]

/-- A byte that the encoding does not hold is 0. -/
theorem Instr.encodedByte_eq_zero {i : Instr} {k : Nat} (h : (encode i).length ≤ k) : i.encodedByte k = 0 :=
  List.getD_eq_default _ _ h

/-- The operand a row makes of two bytes is what the row's mode makes of them (rule R102): a byte that the mode does
not reach is in no operand. -/
theorem operand_decodeOp (op b1 b2 : Byte) :
    (decodeOp op b1 b2).operand = Operand.ofBytes (opcodeRow op).mode b1 b2 := by
  rw [Instr.operand, Instr.row, opcode_decodeOp]
  simp only [Instr.encodedByte, encode_decodeOp_operand]
  cases (opcodeRow op).mode <;> simp [Operand.ofBytes, Operand.bytes]

/-! ### The decoder -/

theorem decode_of_length_one {op : Byte} (h : (opcodeRow op).length = 1) (rest : List Byte) :
    decode (op :: rest) = .ok (decodeOp op 0 0) rest := by
  simp [decode, h]

theorem decode_of_length_two {op : Byte} (h : (opcodeRow op).length = 2) (b1 : Byte) (rest : List Byte) :
    decode (op :: b1 :: rest) = .ok (decodeOp op b1 0) rest := by
  simp [decode, h]

theorem decode_of_length_three {op : Byte} (h : (opcodeRow op).length = 3) (b1 b2 : Byte) (rest : List Byte) :
    decode (op :: b1 :: b2 :: rest) = .ok (decodeOp op b1 b2) rest := by
  simp [decode, h]

/-- What the decoder answers is a row's instruction, and the bytes it consumed are those of the row's length. -/
theorem decode_cases {bytes : List Byte} {i : Instr} {rest : List Byte} (h : decode bytes = .ok i rest) :
    ∃ op b1 b2, i = decodeOp op b1 b2 ∧ bytes = [op, b1, b2].take (opcodeRow op).length ++ rest := by
  unfold decode at h
  split at h
  next => cases h
  next op tail =>
    split at h
    next hl => cases h; exact ⟨op, 0, 0, rfl, by rw [hl]; rfl⟩
    next b1 _ hl => cases h; exact ⟨op, b1, 0, rfl, by rw [hl]; rfl⟩
    next b1 b2 _ hl => cases h; exact ⟨op, b1, b2, rfl, by rw [hl]; rfl⟩
    next => cases h

namespace Machine

/-- Settles O1: whatever the row's length, the decoder hands the row the instruction's own operand bytes, and 0 for a
byte that the encoding does not hold. -/
theorem decodeOfEncode : Obligations.DecodeOfEncode := by
  intro i rest hw
  have hi := decodeOp_encodedBytes hw
  have hlen := encode_length hw
  have lengths : i.row.length = 1 ∨ i.row.length = 2 ∨ i.row.length = 3 := opcodeRow_length_cases i.opcode
  rw [encode_eq_take hw]
  rcases lengths with hl | hl | hl <;> rw [hl]
  · rw [Instr.encodedByte_eq_zero (by omega : _ ≤ 1), Instr.encodedByte_eq_zero (by omega : _ ≤ 2)] at hi
    exact (decode_of_length_one hl rest).trans (by rw [hi])
  · rw [Instr.encodedByte_eq_zero (by omega : _ ≤ 2)] at hi
    exact (decode_of_length_two hl _ rest).trans (by rw [hi])
  · exact (decode_of_length_three hl _ _ rest).trans (by rw [hi])

/-- Settles O2: what the decoder answers is a row's instruction, whose encoding is the bytes that were consumed. -/
theorem encodeOfDecode : Obligations.EncodeOfDecode := by
  intro bytes i rest h
  obtain ⟨op, b1, b2, rfl, rfl⟩ := decode_cases h
  exact ⟨decodeOp_wellFormed op b1 b2, by rw [encode_decodeOp]⟩

/-- Settles O3: three bytes are enough for a row of any length. -/
theorem everyOpcodeByteDecodes : Obligations.EveryOpcodeByteDecodes := by
  refine ⟨by decide +kernel, fun op b1 b2 => ⟨opcodeTable_getElem? op, ?_⟩⟩
  rcases opcodeRow_length_cases op with hl | hl | hl
  · exact ⟨_, _, decode_of_length_one hl _, opcode_decodeOp _ _ _, decodeOp_wellFormed _ _ _⟩
  · exact ⟨_, _, decode_of_length_two hl _ _, opcode_decodeOp _ _ _, decodeOp_wellFormed _ _ _⟩
  · exact ⟨_, _, decode_of_length_three hl _ _ _, opcode_decodeOp _ _ _, decodeOp_wellFormed _ _ _⟩

/-- An indexed zero-page address is an 8-bit sum (rules R125, R126). -/
theorem zext16_add_toNat (a b : Byte) : (zext16 (a + b)).toNat = (a.toNat + b.toNat) % 256 := by
  rw [zext16_toNat, BitVec.toNat_add]

/-- The branch target as a number: the displacement is added with its sign, modulo 2^16 (rule R127). -/
theorem relativeTarget_toNat (next : Addr) (d : Byte) :
    ((relativeTarget next d).toNat : Int) = ((next.toNat : Int) + d.toInt) % 65536 := by
  rw [relativeTarget_eq, BitVec.toNat_ofInt]
  omega

/-- Settles O4: the mode of the row makes the operand, and the addressing modes read it. -/
theorem operandAssembly : Obligations.OperandAssembly := by
  refine ⟨fun op b1 b2 => ?_, fun m s => rfl, fun a s => zext16_toNat a, fun a s => zext16_add_toNat a s.x,
    fun a s => zext16_add_toNat a s.y, relativeTarget_toNat⟩
  simp only [operand_decodeOp, ← word16_eq]
  cases (opcodeRow op).mode <;> rfl

/-- Settles O5: each word is looked up in the table. -/
theorem sampleWordsDecode : Obligations.SampleWordsDecode :=
  ⟨rfl, rfl, rfl, rfl, rfl, rfl, rfl, rfl, rfl, rfl, rfl, rfl⟩

/-- Settles O6: the columns are read off the table; the length of an encoding is that of its row. -/
theorem opcodeTableColumns : Obligations.OpcodeTableColumns := by
  refine ⟨by decide +kernel, by decide +kernel, fun op => ?_, fun i => encode_length, ?_, ?_, ?_, ?_⟩
  · rw [opcodeRow_length]
    cases (opcodeRow op).mode <;> rfl
  all_goals decide +kernel

end Machine

end Sys2Proof
end

section
/-! PROOF. The addressing modes as numbers (rules R124 to R133), and what an instruction that reads or stores its
operand leaves unchanged (rule R135): what its effect leaves, and what its one access of the bus leaves. -/

namespace Sys2Proof.Machine

/-! ### Effective addresses -/

/-- A byte as an address in page 0 (rule R124). -/
theorem zext16_eq (b : Byte) : zext16 b = BitVec.ofNat 16 b.toNat := (BitVec.ofNat_toNat 16 b).symm

/-- An indexed zero-page address wraps within page 0 (rules R125, R126). -/
theorem zext16_add (a b : Byte) : zext16 (a + b) = BitVec.ofNat 16 ((a.toNat + b.toNat) % 256) := by
  rw [zext16_eq, BitVec.toNat_add]

/-- The two bytes of a zero-page pointer as a number, both read from page 0 (rules R132, R133). -/
theorem zeroPagePointer_toNat (p : Byte) (s : State) :
    (zeroPagePointer p s).1.toNat =
      256 * (s.ram.read ((p.toNat + 1) % 256)).toNat + (s.ram.read (p.toNat % 256)).toNat := by
  rw [zeroPagePointer_eq, word16_toNat, BitVec.toNat_add, Nat.mod_eq_of_lt p.isLt]
  rfl

theorem indexed_ea_toNat (base : Addr) (index : Byte) :
    (base + zext16 index).toNat = (base.toNat + index.toNat) % 65536 := by
  rw [BitVec.toNat_add, zext16_toNat]

/-- An index crosses a page when it changes the high byte of the base (rules R129, R130, R133). -/
theorem hiByte_ne_iff (v w : Addr) : hiByte v ≠ hiByte w ↔ v.toNat / 256 ≠ w.toNat / 256 := by
  rw [ne_eq, ← BitVec.toNat_inj, hiByte_toNat, hiByte_toNat]

theorem indexed_eq (base : Addr) (index : Byte) (s : State) :
    indexed base index s =
      ⟨BitVec.ofNat 16 ((base.toNat + index.toNat) % 65536),
        decide ((base.toNat + index.toNat) % 65536 / 256 ≠ base.toNat / 256), s⟩ := by
  simp only [indexed, hiByte_ne_iff, ← indexed_ea_toNat, BitVec.ofNat_toNat, BitVec.setWidth_eq]

/-- Settles O48: the zero-page modes are 8-bit sums, the others a base and an index, and a pointer is two bytes of
page 0. -/
theorem effectiveAddresses : Obligations.EffectiveAddresses := by
  intro a w s pointer resolves indexes
  have pointed (p : Byte) : zeroPagePointer p s = (BitVec.ofNat 16 (pointer p.toNat), s) := by
    simp only [pointer, ← zeroPagePointer_toNat, BitVec.ofNat_toNat, BitVec.setWidth_eq, zeroPagePointer_eq]
  refine ⟨?_, ?_, ?_, ?_, indexed_eq w s.x s, indexed_eq w s.y s, ?_, ?_, fun o => ?_⟩
  · simp only [resolves, resolve, zext16_eq]
  · simp only [resolves, resolve, zext16_add]
  · simp only [resolves, resolve, zext16_add]
  · simp [resolves, resolve]
  · simp only [resolves, resolve, pointed, BitVec.toNat_add]
  · have base := zeroPagePointer_toNat a s
    have state : (zeroPagePointer a s).2 = s := by rw [pointed]
    simp only [indexes, resolves, resolve, indexed_eq, base, state]
    rfl
  · simp only [load, resolve_state]

/-! ### Effects -/

/-- The effect of a read instruction changes A, X, Y and the flags but I and D. -/
theorem readEffect_state (k : Mnemonic) (m : Byte) (s : State) :
    readEffect k m s = { s with
      a := (readEffect k m s).a
      x := (readEffect k m s).x
      y := (readEffect k m s).y
      flags := { (readEffect k m s).flags with i := s.flags.i, d := s.flags.d } } := by
  unfold readEffect
  split <;> rfl

section ReadEffect

variable {k : Mnemonic} (m : Byte) (s : State)

theorem readEffect_a (h : k ∉ [Mnemonic.lda, .adc, .sbc, .and, .ora, .eor, .lax, .anc, .alr, .arr]) :
    (readEffect k m s).a = s.a := by
  unfold readEffect
  split <;> simp at h <;> rfl

theorem readEffect_x (h : k ∉ [Mnemonic.ldx, .lax, .axs]) : (readEffect k m s).x = s.x := by
  unfold readEffect
  split <;> simp at h <;> rfl

theorem readEffect_y (h : k ≠ .ldy) : (readEffect k m s).y = s.y := by
  unfold readEffect
  split <;> simp at h <;> rfl

theorem readEffect_v (h : k ∉ [Mnemonic.adc, .sbc, .bit, .arr]) : (readEffect k m s).flags.v = s.flags.v := by
  unfold readEffect
  split <;> simp at h <;> rfl

theorem readEffect_c (h : k ∉ [Mnemonic.adc, .sbc, .cmp, .cpx, .cpy, .anc, .alr, .arr, .axs]) :
    (readEffect k m s).flags.c = s.flags.c := by
  unfold readEffect
  split <;> simp at h <;> rfl

end ReadEffect

/-- What a read-modify-write instruction makes of the flags is the carry (rules R172, R173, R191 to R194). -/
theorem rmwModify_flags (k : Mnemonic) (m : Byte) (f : Flags) :
    (rmwModify k m f).2 = { f with c := (rmwModify k m f).2.c } := by
  unfold rmwModify
  split <;> rfl

/-- What it does with the result changes A and the flags but I and D. -/
theorem rmwEffect_state (k : Mnemonic) (r : Byte) (s : State) :
    rmwEffect k r s = { s with
      a := (rmwEffect k r s).a
      flags := { (rmwEffect k r s).flags with i := s.flags.i, d := s.flags.d } } := by
  unfold rmwEffect
  split <;> rfl

theorem rmwEffect_a {k : Mnemonic} (h : k ∉ [Mnemonic.slo, .rla, .sre, .rra, .isb]) (r : Byte) (s : State) :
    (rmwEffect k r s).a = s.a := by
  unfold rmwEffect
  split <;> simp at h <;> rfl

theorem rmwEffect_v {k : Mnemonic} (h : k ∉ [Mnemonic.rra, .isb]) (r : Byte) (s : State) :
    (rmwEffect k r s).flags.v = s.flags.v := by
  unfold rmwEffect
  split <;> simp at h <;> rfl

/-! ### Cells -/

@[simp] theorem State.advance_cell (s : State) (op : Byte) (c : Cell) : (s.advance op).cell c = s.cell c :=
  State.cell_congr rfl rfl rfl c

@[simp] theorem State.setFlags_cell (s : State) (f : Flags) (c : Cell) : (s.setFlags f).cell c = s.cell c :=
  State.cell_congr rfl rfl rfl c

@[simp] theorem State.setRemaining_cell (s : State) (n : Nat) (c : Cell) : (s.setRemaining n).cell c = s.cell c :=
  State.cell_congr rfl rfl rfl c

@[simp] theorem readEffect_cell (k : Mnemonic) (m : Byte) (s : State) (c : Cell) :
    (readEffect k m s).cell c = s.cell c := by
  rw [readEffect_state]
  exact State.cell_congr rfl rfl rfl c

@[simp] theorem rmwEffect_cell (k : Mnemonic) (r : Byte) (s : State) (c : Cell) :
    (rmwEffect k r s).cell c = s.cell c := by
  rw [rmwEffect_state]
  exact State.cell_congr rfl rfl rfl c

/-! ### Instructions that read -/

section Read

variable {op : Byte} {src : Source} {k : Mnemonic} {s t : State} (h : readInstr op src (readEffect k) s = .next t)

include h

/-- A read instruction moves PC past itself and changes A, X, Y, the flags but I and D, the picture unit and the draw
counter (rules R22, R135). -/
theorem readInstr_state :
    t = { s.advance op with
      a := t.a
      x := t.x
      y := t.y
      flags := { t.flags with i := s.flags.i, d := s.flags.d }
      remaining := t.remaining
      ppu := t.ppu
      draws := t.draws } := by
  cases h
  rw [readEffect_state, load_state]
  rfl

theorem readInstr_cell (c : Cell) : t.cell c = s.cell c := by
  cases h
  simp

end Read

/-- Settles O45: the read changes the picture unit and the draw counter, the effect changes registers and flags. -/
theorem readInstructionFrame : Obligations.ReadInstructionFrame := by
  intro i src s t hw hk hs h
  rw [exec_read hw hk hs] at h
  have frame := readInstr_state h
  have result : t = (readEffect i.kind _ (load src (s.advance i.opcode)).state).setRemaining _ :=
    (Host.Outcome.next.inj h).symm
  refine ⟨readInstr_cell h, ?_, ?_, ?_, ?_, ?_, ?_, ?_, ?_, ?_, ?_, ?_, ?_, ?_, ?a, ?x, ?y, ?v, ?c, ?nop, ?immediate⟩
  case a => exact fun ha => by simp [result, readEffect_a _ _ ha]
  case x => exact fun hx => by simp [result, readEffect_x _ _ hx]
  case y => exact fun hy => by simp [result, readEffect_y _ _ hy]
  case v => exact fun hv => by simp [result, readEffect_v _ _ hv]
  case c => exact fun hc => by simp [result, readEffect_c _ _ hc]
  case nop => exact fun hn => by simp [result, hn, readEffect]
  case immediate =>
    rintro m rfl
    rw [result, readEffect_state]
    exact ⟨rfl, rfl⟩
  all_goals rw [frame]
  all_goals rfl

/-! ### Instructions that store -/

/-- An access of the bus changes only memory, the cartridge, the picture unit and the draw counter. -/
theorem SameCore.state {s t : State} (h : SameCore s t) :
    t = { s with ram := t.ram, cart := t.cart, ppu := t.ppu, draws := t.draws } := by
  obtain ⟨a, x, y, sp, pc, flags, cycles, remaining, nmi, reset, irq, halted, refused, params⟩ := h
  rw [← a, ← x, ← y, ← sp, ← pc, ← flags, ← cycles, ← remaining, ← nmi, ← reset, ← irq, ← halted, ← refused, ← params]

/-- What an instruction of mnemonic `k` that stores leaves of the registers and flags, from the state with PC at the
next instruction. -/
structure StoreFrame (k : Mnemonic) (s t : State) : Prop where
  state : t = { s with
    a := t.a
    flags := { t.flags with i := s.flags.i, d := s.flags.d }
    remaining := t.remaining
    ram := t.ram
    cart := t.cart
    ppu := t.ppu
    draws := t.draws }
  flags : k ∈ writeKinds → t.flags = s.flags
  a : k ∉ [Mnemonic.slo, .rla, .sre, .rra, .isb] → t.a = s.a
  v : k ∉ [Mnemonic.rra, .isb] → t.flags.v = s.flags.v
  c : k ∈ [Mnemonic.inc, .dec] → t.flags.c = s.flags.c

/-- A write instruction is the store alone (rule R135). -/
theorem writeInstr_frame {op : Byte} {o : MemOperand} {f : State → Byte} {s t : State} (k : Mnemonic)
    (h : writeInstr op o f s = .next t) : StoreFrame k (s.advance op) t := by
  cases h
  simp only [resolve_state]
  have core := SameCore.memWrite (resolve o (s.advance op)).ea (f (s.advance op)) (s.advance op)
  refine ⟨?_, fun _ => core.flags, fun _ => core.a, fun _ => congrArg Flags.v core.flags,
    fun _ => congrArg Flags.c core.flags⟩
  rw [core.state]
  rfl

theorem not_mem_rmwKinds_of_write : ∀ k ∈ writeKinds, k ∉ rmwKinds := by decide

theorem not_mem_unstableKinds_of_store : ∀ k ∈ writeKinds ++ rmwKinds, k ∉ unstableKinds := by decide

/-- After its store a read-modify-write instruction has the flags its modification leaves and the effect of the result
(rules R135, R190). -/
theorem rmwEffect_frame {k : Mnemonic} (hk : k ∈ rmwKinds) {s u : State} (core : SameCore s u) (b r : Byte) (n : Nat) :
    StoreFrame k s ((rmwEffect k r (u.setFlags (rmwModify k b s.flags).2)).setRemaining n) := by
  refine ⟨?state, fun hw => absurd hk (not_mem_rmwKinds_of_write k hw), fun ha => (rmwEffect_a ha _ _).trans core.a,
    fun hv => (rmwEffect_v hv _ _).trans ?v, fun hc => ?c⟩
  case state =>
    rw [rmwEffect_state, rmwModify_flags, core.state]
    rfl
  case v =>
    rw [rmwModify_flags]
    rfl
  case c =>
    simp only [List.mem_cons, List.not_mem_nil, or_false] at hc
    rcases hc with rfl | rfl <;> rfl

theorem rmwInstr_frame {op : Byte} {o : MemOperand} {k : Mnemonic} (hk : k ∈ rmwKinds) {s t : State}
    (h : rmwInstr op (.memory o) (rmwModify k) (rmwEffect k) s = .next t) : StoreFrame k (s.advance op) t := by
  cases h
  simp only [resolve_state, memRead_flags]
  exact rmwEffect_frame hk ((SameCore.memRead _ _).trans (SameCore.memWrite _ _ _)) _ _ _

theorem writeInstr_cell {op : Byte} {o : MemOperand} {f : State → Byte} {s t : State} (hs : s.wf = true)
    (h : writeInstr op o f s = .next t) {c : Cell}
    (hc : cpuStores (s.advance op) (resolve o (s.advance op)).ea c = false) : t.cell c = s.cell c := by
  cases h
  have stored := memWrite_cell ((Keeps.advance s op).wf hs) _ (f (s.advance op)) c hc
  simpa using stored

theorem rmwInstr_cell {op : Byte} {o : MemOperand} {k : Mnemonic} {s t : State} (hs : s.wf = true)
    (h : rmwInstr op (.memory o) (rmwModify k) (rmwEffect k) s = .next t) {c : Cell}
    (hc : cpuStores (memRead (resolve o (s.advance op)).ea (s.advance op)).2 (resolve o (s.advance op)).ea c = false) :
    t.cell c = s.cell c := by
  cases h
  have stored (v : Byte) := memWrite_cell (memRead_wf ((Keeps.advance s op).wf hs) _) _ v c hc
  simp [stored]

/-- Settles O46: the store is one write of the bus at the effective address, in the state the read left where there is
one; the modification and the effect change A and the flags alone. -/
theorem storeInstructionFrame : Obligations.StoreInstructionFrame := by
  intro i o s t hw hs hk ho h ea before
  have stable : i.kind ∉ unstableKinds := not_mem_unstableKinds_of_store _ (List.mem_append.mpr hk)
  have prg := (exec_keeps hw (.inl stable) h).prg
  have store : StoreFrame i.kind (atNext i s) t ∧ ∀ c, cpuStores before ea c = false → t.cell c = s.cell c := by
    rcases hk with hk | hk
    · rw [exec_write hw hk ho] at h
      have untouched : before = atNext i s := if_neg (not_mem_rmwKinds_of_write _ hk)
      rw [untouched]
      exact ⟨writeInstr_frame _ h, fun c => writeInstr_cell hs h⟩
    · rw [exec_rmw hw hk (congrArg Operand.target ho)] at h
      have read : before = (memRead ea (atNext i s)).2 := if_pos hk
      rw [read]
      exact ⟨rmwInstr_frame hk h, fun c => rmwInstr_cell hs h⟩
  obtain ⟨frame, cells⟩ := store
  refine ⟨cells, prg, ?_, ?_, ?_, ?_, ?_, ?_, ?_, ?_, ?_, ?_, ?_, ?_, ?_, frame.flags, frame.a, frame.v, frame.c⟩
  all_goals rw [frame.state]
  all_goals rfl

end Sys2Proof.Machine
end

section
/-! PROOF. Loads, stores and register transfers (rules R140 to R151): what each operand access answers as one next
state, and the effect of each mnemonic in it. -/

namespace Sys2Proof.Machine

/-! ### What an instruction answers -/

/-- An instruction of one byte without an operand moves PC on by 1 and costs its row's count (rules R121, R504). -/
theorem impliedInstr_eq {op : Byte} {cost : Nat} (hl : (opcodeRow op).length = 1)
    (hc : (opcodeRow op).cycles = some cost) (effect : State → State) (s : State) :
    impliedInstr op effect s = .next { effect { s with pc := s.pc + 1 } with remaining := cost } := by
  have base : baseCost op false = cost := by simp [baseCost, hc]
  rw [impliedInstr, base, State.advance, hl]
  rfl

/-- A read instruction loads its operand once, and its effect is all that follows (rules R135, R504). -/
theorem exec_read_eq {i : Instr} {src : Source} (hw : i.wellFormed = true) (hk : i.kind ∈ readKinds)
    (hs : i.operand.source = some src) (s : State) :
    let m := load src (atNext i s)
    exec i s = .next { readEffect i.kind m.value m.state with remaining := costOf i m.crossed } := by
  intro m
  rw [exec_read hw hk hs, costOf_eq]
  rfl

/-- The byte a write instruction stores is one of the registers, not of PC. -/
theorem writeValue_atNext (k : Mnemonic) (i : Instr) (s : State) : writeValue k (atNext i s) = writeValue k s := by
  unfold writeValue
  split <;> rfl

/-- A write instruction stores one byte at an address it does not read; its row is not marked for page crossings, so
only the stall of a write to `$4014` adds to its cost (rules R88, R135, R504). -/
theorem exec_write_eq {i : Instr} {o : MemOperand} (hw : i.wellFormed = true) (hk : i.kind ∈ writeKinds)
    (ho : i.operand = .memory o) (s : State) :
    let ea := (resolve o (atNext i s)).ea
    let cost := i.row.cycles.getD 1
    exec i s = .next { memWrite ea (writeValue i.kind s) (atNext i s) with remaining := cost + stallOf s cost ea } := by
  intro ea cost
  rw [exec_write hw hk ho, stallOf_eq, ← writeValue_atNext i.kind i s]
  simp only [writeInstr, baseCost_stores (.inl hk), resolve_state]
  rfl

/-! ### The obligations -/

/-- Settles O23: the effect of a load sets its register and N and Z from the byte, and reading it changed no flag. -/
theorem loadResults : Obligations.LoadResults := by
  refine ⟨.of_checks (by decide) (by decide +kernel), .of_checks (by decide) (by decide +kernel),
    .of_checks (by decide) (by decide +kernel), fun i src s hw hs => ?_⟩
  have flags (m : Byte) : nzOf s.flags m = (load src (atNext i s)).state.flags.setNZ m := by
    rw [load_flags, nzOf_eq]
    rfl
  refine ⟨fun hk => ?lda, fun hk => ?ldx, fun hk => ?ldy⟩
  all_goals
    rw [exec_read_eq hw (by rw [hk]; decide) hs, hk, flags]
    rfl

/-- Settles O24: the store is one write of the bus, of the register its mnemonic names. -/
theorem storeResults : Obligations.StoreResults := by
  refine ⟨.of_checks (by decide) (by decide +kernel), .of_checks (by decide) (by decide +kernel),
    .of_checks (by decide) (by decide +kernel), fun i o s hw ho => ⟨fun hk => ?sta, fun hk => ?stx, fun hk => ?sty⟩⟩
  all_goals
    rw [exec_write_eq hw (by rw [hk]; decide) ho, hk]
    rfl

/-- Settles O25: each transfer is a move, followed in all but TXS by N and Z from the byte moved. -/
theorem transferResults : Obligations.TransferResults := by
  refine ⟨.of_checks (by decide) (by decide +kernel), .of_checks (by decide) (by decide +kernel),
    .of_checks (by decide) (by decide +kernel), .of_checks (by decide) (by decide +kernel),
    .of_checks (by decide) (by decide +kernel), .of_checks (by decide) (by decide +kernel), fun s => ?_⟩
  simp only [nzOf_eq]
  exact ⟨impliedInstr_eq (op := 0xAA) rfl rfl taxEffect s, impliedInstr_eq (op := 0xA8) rfl rfl tayEffect s,
    impliedInstr_eq (op := 0x8A) rfl rfl txaEffect s, impliedInstr_eq (op := 0x98) rfl rfl tyaEffect s,
    impliedInstr_eq (op := 0xBA) rfl rfl tsxEffect s, impliedInstr_eq (op := 0x9A) rfl rfl txsEffect s⟩

end Sys2Proof.Machine
end

section
/-! PROOF. Arithmetic, logic, compares, increments and decrements (rules R160 to R177): the shared adder as integer
addition, the subtraction it makes of a complemented operand, and what each mnemonic's effect makes of the operand. -/

namespace Sys2Proof.Machine

/-! ### The sign bit -/

/-- Bit 7 of a byte as a number (rule R5). -/
theorem getLsbD_seven (b : Byte) : b.getLsbD 7 = decide (128 ≤ b.toNat) := BitVec.msb_eq_decide b

/-- The adder overflows when its inputs have one sign and the result has the other (rule R161). -/
theorem overflowBit_iff (a b r : Byte) :
    overflowBit a b r = true ↔ (128 ≤ a.toNat ↔ 128 ≤ b.toNat) ∧ ¬(128 ≤ a.toNat ↔ 128 ≤ r.toNat) := by
  simp only [overflowBit, BitVec.getLsbD_and, BitVec.getLsbD_not, BitVec.getLsbD_xor]
  simp only [getLsbD_seven]
  simp

/-! ### The shared adder -/

/-- V is set exactly when the signed sum leaves the signed range; where it does not, the result is the signed sum. -/
theorem overflowBit_sum9 (a b : Byte) (c : Bool) :
    let r : Byte := BitVec.ofNat 8 (sum9 a b c)
    (overflowBit a b r = true ↔ a.toInt + b.toInt + c.toNat < -128 ∨ 127 < a.toInt + b.toInt + c.toNat) ∧
      (overflowBit a b r = false → r.toInt = a.toInt + b.toInt + c.toNat) := by
  intro r
  have ha := a.isLt
  have hb := b.isLt
  have hc := c.toNat_le
  have hr : r.toNat = (a.toNat + b.toNat + c.toNat) % 256 := BitVec.toNat_ofNat _ 8
  rw [← Bool.not_eq_true, overflowBit_iff]
  simp only [BitVec.toInt_eq_toNat_cond]
  constructor <;> split_ifs <;> omega

/-- Settles O28: the 9-bit sum, its bit 8 and its overflow bit as numbers. -/
theorem adderIsIntegerAddition : Obligations.AdderIsIntegerAddition := by
  intro a b f r
  obtain ⟨overflow, signed⟩ := overflowBit_sum9 a b f.c
  have result : r.1 = BitVec.ofNat 8 (sum9 a b f.c) := addWithCarry_fst a b f
  have flags : r.2 = _ := addWithCarry_snd a b f
  rw [flags, result]
  refine ⟨BitVec.toNat_ofNat _ 8, decide_eq_true_iff, overflow, signed, ?n, ?z, rfl, rfl⟩
  case n => rw [← decide_eq_true_iff (p := _ < 0), ← BitVec.msb_eq_toInt]; rfl
  case z => rw [nzOf_eq]; exact decide_eq_true_iff

/-! ### The complemented operand of a subtraction -/

section Subtraction

variable (a m : Byte) (c : Bool)

/-- Adding the complement of a byte and C takes the byte and the borrow away (rules R161, R164). -/
theorem ofNat_sum9_not : (BitVec.ofNat 8 (sum9 a (~~~m) c) : Byte) = a - m - (if c then 0 else 1) := by
  cases c <;> simp only [sum9, Bool.false_eq_true, reduceIte] <;> bv_omega

/-- The sum carries where the subtraction needs no borrow. -/
theorem sum9_not_carry : 256 ≤ sum9 a (~~~m) c ↔ m.toNat + (if c then 0 else 1) ≤ a.toNat := by
  cases c <;> simp only [sum9, Bool.false_eq_true, reduceIte] <;> bv_omega

theorem overflowBit_not (r : Byte) : overflowBit a (~~~m) r = ((a ^^^ m) &&& (a ^^^ r)).getLsbD 7 := by
  simp [overflowBit]

end Subtraction

theorem sbcEffect_eq (m : Byte) (s : State) :
    let r : Byte := s.a - m - (if s.flags.c then 0 else 1)
    sbcEffect m s = { s with
      a := r
      flags := { nzOf s.flags r with
        c := decide (m.toNat + (if s.flags.c then 0 else 1) ≤ s.a.toNat)
        v := ((s.a ^^^ m) &&& (s.a ^^^ r)).getLsbD 7 } } := by
  simp only [sbcEffect, adcEffect_eq, afterAdd, ofNat_sum9_not, sum9_not_carry, overflowBit_not]

/-! ### Instructions that read -/

/-- Settles O26: the effect of ADC is the shared adder on A, the operand and the flags the read left as they were. -/
theorem adcResult : Obligations.AdcResult := by
  refine ⟨.of_checks (by decide) (by decide +kernel), fun i src s hw hs hk => ?_⟩
  have flags : (load src (atNext i s)).state.flags = s.flags := load_flags src _
  rw [exec_read_eq hw (by rw [hk]; decide) hs, hk, ← flags]
  simp only [readEffect, adcEffect_eq]

/-- Settles O27: the effect of SBC is the shared adder on the complemented operand. -/
theorem sbcResult : Obligations.SbcResult := by
  refine ⟨.of_checks (by decide) (by decide +kernel), fun i src s hw hs hk => ?_⟩
  have flags : (load src (atNext i s)).state.flags = s.flags := load_flags src _
  have a : (load src (atNext i s)).state.a = s.a := load_a src _
  rw [exec_read_eq hw (by rw [hk]; decide) hs, hk, ← flags, ← a]
  simp only [readEffect, sbcEffect_eq]

/-- Settles O29: each effect sets A or only flags, from registers and flags that the read left as they were. -/
theorem logicResults : Obligations.LogicResults := by
  refine ⟨.of_checks (by decide) (by decide +kernel), .of_checks (by decide) (by decide +kernel),
    .of_checks (by decide) (by decide +kernel), .of_checks (by decide) (by decide +kernel), fun i src s hw hs => ?_⟩
  have flags : (load src (atNext i s)).state.flags = s.flags := load_flags src _
  have a : (load src (atNext i s)).state.a = s.a := load_a src _
  simp only [nzOf_eq, ← flags, ← a]
  refine ⟨fun hk => ?and, fun hk => ?ora, fun hk => ?eor, fun hk => ?bit⟩
  all_goals
    rw [exec_read_eq hw (by rw [hk]; decide) hs, hk]
    rfl

/-- Settles O30: each compare sets flags alone, from the register its mnemonic names. -/
theorem compareResults : Obligations.CompareResults := by
  refine ⟨.of_checks (by decide) (by decide +kernel), .of_checks (by decide) (by decide +kernel),
    .of_checks (by decide) (by decide +kernel), fun i src s hw hs => ?_⟩
  have flags : (load src (atNext i s)).state.flags = s.flags := load_flags src _
  have a : (load src (atNext i s)).state.a = s.a := load_a src _
  have x : (load src (atNext i s)).state.x = s.x := load_x src _
  have y : (load src (atNext i s)).state.y = s.y := load_y src _
  simp only [← compareFlags_eq, ← flags, ← a, ← x, ← y]
  refine ⟨fun hk => ?cmp, fun hk => ?cpx, fun hk => ?cpy⟩
  all_goals
    rw [exec_read_eq hw (by rw [hk]; decide) hs, hk]
    rfl

/-! ### Increments and decrements -/

/-- A read-modify-write instruction reads the byte at its address once, stores what it makes of the byte and works from
the result; its row is not marked for page crossings (rules R88, R135, R190, R504). -/
theorem exec_rmw_eq {i : Instr} {o : MemOperand} (hw : i.wellFormed = true) (hk : i.kind ∈ rmwKinds)
    (ho : i.operand = .memory o) (s : State) :
    let ea := (resolve o (atNext i s)).ea
    let b := memRead ea (atNext i s)
    let m := rmwModify i.kind b.1 s.flags
    let cost := i.row.cycles.getD 1
    exec i s = .next { rmwEffect i.kind m.1 { memWrite ea m.1 b.2 with flags := m.2 } with
      remaining := cost + stallOf s cost ea } := by
  intro ea b m cost
  have flags : b.2.flags = s.flags := memRead_flags ea _
  rw [exec_rmw hw hk (congrArg Operand.target ho), stallOf_eq]
  simp only [rmwInstr, baseCost_stores (.inr hk), resolve_state, m, ← flags]
  rfl

/-- One more, modulo 256 (rules R172, R174, R175). -/
theorem ofNat_toNat_add_one (m : Byte) : (BitVec.ofNat 8 (m.toNat + 1) : Byte) = m + 1 := by bv_omega

/-- One less, modulo 256 (rules R173, R176, R177). -/
theorem ofNat_toNat_add_255 (m : Byte) : (BitVec.ofNat 8 (m.toNat + 255) : Byte) = m - 1 := by bv_omega

/-- Settles O31: the modification is one up or down and leaves the flags, from which the effect sets N and Z. -/
theorem incrementDecrementResults : Obligations.IncrementDecrementResults := by
  refine ⟨.of_checks (by decide) (by decide +kernel), .of_checks (by decide) (by decide +kernel),
    .of_checks (by decide) (by decide +kernel), .of_checks (by decide) (by decide +kernel),
    .of_checks (by decide) (by decide +kernel), .of_checks (by decide) (by decide +kernel),
    fun i o s hw ho => ?memory, fun s => ?registers⟩
  case memory =>
    simp only [nzOf_eq, ofNat_toNat_add_one, ofNat_toNat_add_255]
    refine ⟨fun hk => ?inc, fun hk => ?dec⟩
    all_goals
      rw [exec_rmw_eq hw (by rw [hk]; decide) ho, hk]
      rfl
  case registers =>
    simp only [nzOf_eq]
    exact ⟨impliedInstr_eq (op := 0xE8) rfl rfl inxEffect s, impliedInstr_eq (op := 0xC8) rfl rfl inyEffect s,
      impliedInstr_eq (op := 0xCA) rfl rfl dexEffect s, impliedInstr_eq (op := 0x88) rfl rfl deyEffect s⟩

end Sys2Proof.Machine
end

section
/-! PROOF. D changes nothing an instruction computes (rule R160): the bus reads no flag, and an effect reads D only to
push it. -/

namespace Sys2Proof.Machine

/-! ### The bus reads no flag -/

theorem readPpuReg_setFlags (r : BitVec 3) (f : Flags) (s : State) :
    readPpuReg r (s.setFlags f) = ((readPpuReg r s).1, (readPpuReg r s).2.setFlags f) := by
  have openBus : openBusByte (s.setFlags f) = ((openBusByte s).1, (openBusByte s).2.setFlags f) := by
    unfold openBusByte
    rw [State.setFlags_params]
    split <;> rfl
  unfold readPpuReg
  split
  · unfold readStatus
    rw [openBus]
    rfl
  · rfl
  · unfold readData
    simp only [State.setFlags_ppu, openBus]
    split <;> rfl
  · exact openBus

theorem memRead_setFlags (a : Addr) (f : Flags) (s : State) :
    memRead a (s.setFlags f) = ((memRead a s).1, (memRead a s).2.setFlags f) := by
  unfold memRead
  split
  case h_2 => exact readPpuReg_setFlags _ f s
  all_goals rfl

theorem ppuWrite_setFlags (a : BitVec 14) (d : Byte) (f : Flags) (s : State) :
    ppuWrite a d (s.setFlags f) = (ppuWrite a d s).setFlags f := by
  unfold ppuWrite
  rw [State.setFlags_cart]
  split <;> rfl

theorem writePpuReg_setFlags (r : BitVec 3) (d : Byte) (f : Flags) (s : State) :
    writePpuReg r d (s.setFlags f) = (writePpuReg r d s).setFlags f := by
  have latched : (s.setFlags f).setPpu { (s.setFlags f).ppu with ioLatch := d } =
      (s.setPpu { s.ppu with ioLatch := d }).setFlags f := rfl
  unfold writePpuReg
  simp only [latched]
  split
  case h_7 =>
    unfold writeData
    simp only [State.setFlags_ppu, ppuWrite_setFlags]
    rfl
  all_goals rfl

theorem foldl_dmaByte_setFlags (v : Byte) (l : List Nat) (f : Flags) (s : State) :
    l.foldl (dmaByte v) (s.setFlags f) = (l.foldl (dmaByte v) s).setFlags f := by
  induction l generalizing s with
  | nil => rfl
  | cons i rest ih =>
    have first : dmaByte v (s.setFlags f) i = (dmaByte v s i).setFlags f := by
      simp only [dmaByte, memRead_setFlags]
      rfl
    rw [List.foldl_cons, List.foldl_cons, first, ih]

theorem memWrite_setFlags (a : Addr) (v : Byte) (f : Flags) (s : State) :
    memWrite a v (s.setFlags f) = (memWrite a v s).setFlags f := by
  unfold memWrite
  split
  case h_2 => exact writePpuReg_setFlags _ v f s
  case h_3 => exact foldl_dmaByte_setFlags v _ f s
  all_goals rfl

/-- An address is made of registers and RAM, never of flags (rules R120 to R133). -/
theorem resolve_setFlags (o : MemOperand) (f : Flags) (s : State) :
    resolve o (s.setFlags f) = ⟨(resolve o s).ea, (resolve o s).crossed, s.setFlags f⟩ := by
  cases o <;> simp only [resolve, indexed, zeroPagePointer_eq] <;> rfl

theorem load_setFlags (src : Source) (f : Flags) (s : State) :
    load src (s.setFlags f) = ⟨(load src s).value, (load src s).crossed, (load src s).state.setFlags f⟩ := by
  cases src with
  | immediate m => rfl
  | memory o => simp only [load, resolve_setFlags, memRead_setFlags, resolve_state]

/-! ### Setting D -/

/-- The state with D set to `b`. -/
def State.setD (b : Bool) (s : State) : State := s.setFlags { s.flags with d := b }

section SetD

variable (b : Bool) (s : State)

@[simp] theorem State.setD_flags : (s.setD b).flags = { s.flags with d := b } := rfl

theorem State.advance_setD (op : Byte) : (s.setD b).advance op = (s.advance op).setD b := rfl

theorem State.setA_setD (v : Byte) : (s.setD b).setA v = (s.setA v).setD b := rfl

theorem State.setFlags_setD (f : Flags) : (s.setD b).setFlags { f with d := b } = (s.setFlags f).setD b := rfl

theorem memRead_setD (a : Addr) : memRead a (s.setD b) = ((memRead a s).1, (memRead a s).2.setD b) := by
  rw [State.setD, memRead_setFlags, State.setD, memRead_flags]

theorem memWrite_setD (a : Addr) (v : Byte) : memWrite a v (s.setD b) = (memWrite a v s).setD b := by
  rw [State.setD, memWrite_setFlags, State.setD, memWrite_flags]

theorem resolve_setD (o : MemOperand) :
    resolve o (s.setD b) = ⟨(resolve o s).ea, (resolve o s).crossed, s.setD b⟩ := resolve_setFlags o _ s

theorem load_setD (src : Source) :
    load src (s.setD b) = ⟨(load src s).value, (load src s).crossed, (load src s).state.setD b⟩ := by
  rw [State.setD, load_setFlags, State.setD, load_flags]

/-! ### Effects -/

theorem readEffect_setD (k : Mnemonic) (m : Byte) : readEffect k m (s.setD b) = (readEffect k m s).setD b := by
  unfold readEffect
  split <;> rfl

theorem rmwModify_setD (k : Mnemonic) (m : Byte) (f : Flags) :
    rmwModify k m { f with d := b } = ((rmwModify k m f).1, { (rmwModify k m f).2 with d := b }) := by
  unfold rmwModify
  split <;> rfl

theorem rmwEffect_setD (k : Mnemonic) (r : Byte) : rmwEffect k r (s.setD b) = (rmwEffect k r s).setD b := by
  unfold rmwEffect
  split <;> rfl

theorem branchCond_setD (k : Mnemonic) (f : Flags) : branchCond k { f with d := b } = branchCond k f := by
  unfold branchCond
  split <;> rfl

/-- The mnemonics that set, clear, push or pull D (rules R213, R214, R221, R223, R228, R229). -/
def decimalKinds : List Mnemonic := [.cld, .sed, .php, .plp, .brk, .rti]

theorem impliedEffect_setD {k : Mnemonic} (hk : k ∉ decimalKinds) :
    impliedEffect k (s.setD b) = (impliedEffect k s).setD b := by
  unfold impliedEffect
  split <;> simp [decimalKinds] at hk
  case h_11 => simp only [rtsEffect, pull16_eq]; rfl
  case h_14 => simp only [phaEffect, push_eq]; rfl
  case h_16 => simp only [plaEffect, pull_eq]; rfl
  all_goals rfl

theorem jsrEffect_setD (w : Addr) : jsrEffect w (s.setD b) = (jsrEffect w s).setD b := by
  simp only [jsrEffect, push16_eq]
  rfl

theorem jmpIndirectEffect_setD (w : Addr) : jmpIndirectEffect w (s.setD b) = (jmpIndirectEffect w s).setD b := by
  simp only [jmpIndirectEffect, indirectTarget, memRead_setD]
  rfl

theorem baseHigh_setD (o : MemOperand) : baseHigh o (s.setD b) = baseHigh o s := by
  cases o <;> simp only [baseHigh, zeroPagePointer_eq] <;> rfl

theorem corruptibleStore_setD (o : MemOperand) (v : Byte) :
    corruptibleStore o v (s.setD b) = ((corruptibleStore o v s).1.setD b, (corruptibleStore o v s).2) := by
  have drawn : (s.setD b).drawn = s.drawn.setD b := rfl
  simp only [corruptibleStore, resolve_setD, baseHigh_setD, resolve_state, drawn, memWrite_setD]
  split <;> rfl

theorem unstableEffect_setD (k : Mnemonic) (o : Operand) :
    unstableEffect k o (s.setD b) = ((unstableEffect k o s).1.setD b, (unstableEffect k o s).2) := by
  unfold unstableEffect
  split
  case h_3 => simp only [lasEffect, load_setD]; rfl
  case h_4 => exact corruptibleStore_setD b s _ _
  case h_5 => exact corruptibleStore_setD b s _ _
  case h_6 => exact corruptibleStore_setD b s _ _
  case h_7 =>
    have sp (v : Byte) : (s.setD b).setSp v = (s.setSp v).setD b := rfl
    simp only [tasEffect, resolve_setD, resolve_state, sp, baseHigh_setD, memWrite_setD]
    rfl
  all_goals rfl

end SetD

/-! ### The instruction forms -/

/-- From two states that differ in D at most, a form answers next states that do. -/
def IgnoresD (form : State → Result) : Prop :=
  ∀ b s, ∃ t, form s = .next t ∧ form (s.setD b) = .next (t.setD b)

theorem impliedInstr_ignoresD {op : Byte} {f : State → State} (hf : ∀ b s, f (s.setD b) = (f s).setD b) :
    IgnoresD (impliedInstr op f) :=
  fun b s => ⟨_, rfl, by simp only [impliedInstr, State.advance_setD, hf]; rfl⟩

theorem readInstr_ignoresD (op : Byte) (src : Source) (k : Mnemonic) :
    IgnoresD (readInstr op src (readEffect k)) := by
  intro b s
  exact ⟨_, rfl, by simp only [readInstr, State.advance_setD, load_setD, readEffect_setD]; rfl⟩

theorem writeInstr_ignoresD (op : Byte) (o : MemOperand) (k : Mnemonic) :
    IgnoresD (writeInstr op o (writeValue k)) := by
  intro b s
  have value (s : State) : writeValue k (s.setD b) = writeValue k s := by
    unfold writeValue
    split <;> rfl
  exact ⟨_, rfl, by simp only [writeInstr, State.advance_setD, resolve_setD, resolve_state, value, memWrite_setD]; rfl⟩

theorem rmwInstr_ignoresD (op : Byte) (target : Target) (k : Mnemonic) :
    IgnoresD (rmwInstr op target (rmwModify k) (rmwEffect k)) := by
  intro b s
  cases target <;> exact ⟨_, rfl, by
    simp only [rmwInstr, State.advance_setD, resolve_setD, resolve_state, memRead_setD, State.setD_flags, rmwModify_setD,
      memWrite_setD, State.setFlags_setD, State.setA_setD, rmwEffect_setD]
    rfl⟩

theorem branchInstr_ignoresD (op : Byte) (k : Mnemonic) (d : Byte) :
    IgnoresD (branchInstr op (branchCond k) d) := by
  intro b s
  have cond : branchCond k ((s.setD b).advance op).flags = branchCond k (s.advance op).flags := branchCond_setD b k s.flags
  unfold branchInstr
  simp only [cond]
  split <;> exact ⟨_, rfl, rfl⟩

theorem unstableInstr_ignoresD (op : Byte) (k : Mnemonic) (o : Operand) :
    IgnoresD (unstableInstr op (unstableEffect k o)) := by
  intro b s
  have params : (s.setD b).params = s.params := rfl
  unfold unstableInstr
  simp only [params, State.advance_setD, unstableEffect_setD]
  split <;> exact ⟨_, rfl, rfl⟩

/-- Every form but those of the six mnemonics ignores D. -/
theorem execForm_ignoresD {k : Mnemonic} {op : Byte} {o : Operand} {form : State → Result} (hk : k ∉ decimalKinds)
    (h : execForm k op o = some form) : IgnoresD form := by
  unfold execForm at h
  split at h
  · cases h; exact impliedInstr_ignoresD fun _ _ => rfl
  · cases h; exact impliedInstr_ignoresD fun b s => jmpIndirectEffect_setD b s _
  · cases h; exact impliedInstr_ignoresD fun b s => jsrEffect_setD b s _
  · split at h <;> cases h
    exact impliedInstr_ignoresD fun b s => impliedEffect_setD b s hk
  · split at h <;> cases h
    exact branchInstr_ignoresD _ _ _
  · split at h <;> cases h
    exact rmwInstr_ignoresD _ _ _
  · split at h
    · cases h; exact readInstr_ignoresD _ _ _
    · split at h <;> cases h
      exact unstableInstr_ignoresD _ _ _
  · split at h
    · cases h; exact readInstr_ignoresD _ _ _
    · split at h
      · cases h; exact writeInstr_ignoresD _ _ _
      · split at h
        · cases h; exact rmwInstr_ignoresD _ _ _
        · split at h <;> cases h
          exact unstableInstr_ignoresD _ _ _
  · cases h

/-- Settles O44: the form an instruction runs is named by its mnemonic and operand, and ignores D. -/
theorem decimalFlagHasNoEffect : Obligations.DecimalFlagHasNoEffect := by
  intro i s b hw hk
  obtain ⟨form, named, runs⟩ := Option.map_eq_some_iff.mp (exec_form hw s)
  have runs' : form (s.setD b) = exec i (s.setD b) := by simpa [named] using exec_form hw (s.setD b)
  obtain ⟨t, ht, ht'⟩ := execForm_ignoresD hk named b s
  exact ⟨t, runs ▸ ht, runs' ▸ ht'⟩

end Sys2Proof.Machine
end

section
/-! PROOF. Shifts and rotates (rules R190 to R194): each shift's result and carry as numbers, and what an instruction
on the accumulator answers. -/

namespace Sys2Proof.Machine

/-! ### The shifts as numbers -/

section Shifts

variable (m : Byte) (f : Flags)

theorem shiftAsl_eq : shiftAsl m f = (BitVec.ofNat 8 (2 * m.toNat), { f with c := m.getLsbD 7 }) :=
  Prod.ext (shiftAsl_fst m f) rfl

theorem shiftLsr_eq : shiftLsr m f = (BitVec.ofNat 8 (m.toNat / 2), { f with c := m.getLsbD 0 }) :=
  Prod.ext (shiftLsr_fst m f) rfl

theorem shiftRol_eq : shiftRol m f = (BitVec.ofNat 8 (2 * m.toNat + f.c.toNat), { f with c := m.getLsbD 7 }) :=
  Prod.ext (shiftRol_fst m f) rfl

theorem shiftRor_eq :
    shiftRor m f = (BitVec.ofNat 8 (m.toNat / 2 + 128 * f.c.toNat), { f with c := m.getLsbD 0 }) :=
  Prod.ext (shiftRor_fst m f) rfl

end Shifts

/-! ### Instructions on the accumulator -/

/-- Only the accumulator mode makes an accumulator operand (rule R122). -/
theorem mode_of_operand_accumulator {i : Instr} (ho : i.operand = .accumulator) : i.row.mode = .accumulator := by
  rw [Instr.operand] at ho
  generalize i.row.mode = mode at ho ⊢
  cases mode <;> simp [Operand.ofBytes] at ho ⊢

/-- Every row of the accumulator mode costs two cycles (rules R104, R504). -/
theorem baseCost_of_operand_accumulator {i : Instr} (ho : i.operand = .accumulator) : baseCost i.opcode false = 2 := by
  have cycles : (opcodeRow i.opcode).cycles = some 2 :=
    opcodeRow_of_table (P := fun r => r.mode = .accumulator → r.cycles = some 2) (by decide) i.opcode
      (mode_of_operand_accumulator ho)
  simp [baseCost, cycles]

/-- A read-modify-write instruction on the accumulator puts what it makes of A there and works from the result
(rules R122, R135, R190). -/
theorem exec_rmw_accumulator_eq {i : Instr} (hw : i.wellFormed = true) (hk : i.kind ∈ rmwKinds)
    (ho : i.operand = .accumulator) (s : State) :
    let m := rmwModify i.kind s.a s.flags
    exec i s = .next { rmwEffect i.kind m.1 { atNext i s with a := m.1, flags := m.2 } with remaining := 2 } := by
  rw [exec_rmw hw hk (congrArg Operand.target ho), rmwInstr, baseCost_of_operand_accumulator ho]
  rfl

/-! ### The obligation -/

theorem mem_rmwKinds_of_shift : ∀ k ∈ [Mnemonic.asl, .lsr, .rol, .ror], k ∈ rmwKinds := by decide

/-- A shift or rotate does no more with its result than set N and Z from it. -/
theorem rmwEffect_of_shift {k : Mnemonic} (hk : k ∈ [Mnemonic.asl, .lsr, .rol, .ror]) : rmwEffect k = nzEffect := by
  simp only [List.mem_cons, List.not_mem_nil, or_false] at hk
  rcases hk with rfl | rfl | rfl | rfl <;> rfl

/-- Settles O32: the modification is the numbered shift with its carry, and the effect sets N and Z from the result. -/
theorem shiftResults : Obligations.ShiftResults := by
  refine ⟨.of_checks (by decide) (by decide +kernel), .of_checks (by decide) (by decide +kernel),
    .of_checks (by decide) (by decide +kernel), .of_checks (by decide) (by decide +kernel), ?_⟩
  intro i s hw result hk
  have rmw : i.kind ∈ rmwKinds := mem_rmwKinds_of_shift _ hk
  have effect : rmwEffect i.kind = nzEffect := rmwEffect_of_shift hk
  have modified (m : Byte) : rmwModify i.kind m s.flags = ((result m).1, { s.flags with c := (result m).2 }) := by
    simp only [List.mem_cons, List.not_mem_nil, or_false] at hk
    rcases hk with hk | hk | hk | hk <;> simp only [result, hk]
    · exact shiftAsl_eq m s.flags
    · exact shiftLsr_eq m s.flags
    · exact shiftRol_eq m s.flags
    · exact shiftRor_eq m s.flags
  simp only [nzOf_eq]
  refine ⟨fun ho => ?accumulator, fun o ho => ?memory⟩
  case accumulator =>
    rw [exec_rmw_accumulator_eq hw rmw ho, modified, effect]
    rfl
  case memory =>
    rw [exec_rmw_eq hw rmw ho, modified, effect]
    rfl

end Sys2Proof.Machine
end

section
/-! PROOF. Branches, jumps, calls, returns and the software interrupt (rules R200 to R214): what each instruction answers
as one next state, and that RTS pulls the word JSR pushed. -/

namespace Sys2Proof.Machine

/-! ### Branches -/

/-- The state after a branch, by whether its condition holds, with its target and the pages as numbers (rules R200,
R505). -/
def branched (d : Byte) (taken : Bool) (s : State) : State :=
  let next := (s.pc.toNat + 2) % 65536
  let target := ((next : Int) + d.toInt) % 65536
  { s with
    pc := BitVec.ofInt 16 ((s.pc.toNat : Int) + 2 + (if taken then d.toInt else 0))
    remaining := if taken then (if target / 256 = next / 256 then 3 else 4) else 2 }

theorem ofInt_toNat_add_two (pc : Addr) : BitVec.ofInt 16 ((pc.toNat : Int) + 2) = pc + 2 := by
  rw [BitVec.ofInt_add, BitVec.ofInt_natCast, BitVec.ofNat_toNat, BitVec.setWidth_eq]
  rfl

/-- A branch goes to the address after it plus the displacement (rule R127). -/
theorem relativeTarget_add_two (pc : Addr) (d : Byte) :
    relativeTarget (pc + 2) d = BitVec.ofInt 16 ((pc.toNat : Int) + 2 + d.toInt) := by
  rw [BitVec.ofInt_add, ofInt_toNat_add_two]
  rfl

/-- The target is on the page of the next instruction where the two addresses have one quotient by 256 (rule R505). -/
theorem hiByte_relativeTarget_eq_iff (next : Addr) (d : Byte) :
    hiByte (relativeTarget next d) = hiByte next ↔
      ((next.toNat : Int) + d.toInt) % 65536 / 256 = (next.toNat : Int) / 256 := by
  rw [← relativeTarget_toNat, ← BitVec.toNat_inj, hiByte_toNat, hiByte_toNat]
  omega

theorem branchInstr_eq {op : Byte} (hl : (opcodeRow op).length = 2) (hc : (opcodeRow op).cycles = some 2)
    (cond : Flags → Bool) (d : Byte) (s : State) :
    branchInstr op cond d s = .next (branched d (cond s.flags) s) := by
  have base : baseCost op false = 2 := by simp [baseCost, hc]
  have advanced : s.advance op = { s with pc := s.pc + 2 } := by rw [State.advance, hl]; rfl
  have next : (s.pc + 2).toNat = (s.pc.toNat + 2) % 65536 := BitVec.toNat_add s.pc 2
  rw [branchInstr, base, advanced]
  simp only [hiByte_relativeTarget_eq_iff, next]
  cases cond s.flags with
  | false =>
    simp only [branched, Bool.false_eq_true, reduceIte, add_zero, ofInt_toNat_add_two]
    rfl
  | true =>
    simp only [branched, reduceIte, ← relativeTarget_add_two]
    split <;> rfl

/-- What each of the eight branches answers, by the flag its mnemonic names (rules R201 to R208). -/
theorem exec_branches (d : Byte) (s : State) :
    exec (.bpl d) s = .next (branched d (!s.flags.n) s) ∧ exec (.bmi d) s = .next (branched d s.flags.n s) ∧
    exec (.bvc d) s = .next (branched d (!s.flags.v) s) ∧ exec (.bvs d) s = .next (branched d s.flags.v s) ∧
    exec (.bcc d) s = .next (branched d (!s.flags.c) s) ∧ exec (.bcs d) s = .next (branched d s.flags.c s) ∧
    exec (.bne d) s = .next (branched d (!s.flags.z) s) ∧ exec (.beq d) s = .next (branched d s.flags.z s) :=
  ⟨branchInstr_eq (op := 0x10) rfl rfl (!·.n) d s, branchInstr_eq (op := 0x30) rfl rfl (·.n) d s,
    branchInstr_eq (op := 0x50) rfl rfl (!·.v) d s, branchInstr_eq (op := 0x70) rfl rfl (·.v) d s,
    branchInstr_eq (op := 0x90) rfl rfl (!·.c) d s, branchInstr_eq (op := 0xB0) rfl rfl (·.c) d s,
    branchInstr_eq (op := 0xD0) rfl rfl (!·.z) d s, branchInstr_eq (op := 0xF0) rfl rfl (·.z) d s⟩

/-- Settles O37: the PC of the state after a branch. -/
theorem branchResults : Obligations.BranchResults := by
  refine ⟨.of_checks (by decide) (by decide +kernel), .of_checks (by decide) (by decide +kernel),
    .of_checks (by decide) (by decide +kernel), .of_checks (by decide) (by decide +kernel),
    .of_checks (by decide) (by decide +kernel), .of_checks (by decide) (by decide +kernel),
    .of_checks (by decide) (by decide +kernel), .of_checks (by decide) (by decide +kernel), fun d s => ?_⟩
  obtain ⟨bpl, bmi, bvc, bvs, bcc, bcs, bne, beq⟩ := exec_branches d s
  simp only [beq_true, beq_false]
  exact ⟨⟨_, bpl⟩, ⟨_, bmi⟩, ⟨_, bvc⟩, ⟨_, bvs⟩, ⟨_, bcc⟩, ⟨_, bcs⟩, ⟨_, bne⟩, ⟨_, beq⟩⟩

/-- Settles O38: the cost of the state after a branch. -/
theorem branchCost : Obligations.BranchCost := by
  intro d s
  obtain ⟨bpl, bmi, bvc, bvs, bcc, bcs, bne, beq⟩ := exec_branches d s
  simp only [beq_true, beq_false]
  exact ⟨⟨_, bpl, rfl⟩, ⟨_, bmi, rfl⟩, ⟨_, bvc, rfl⟩, ⟨_, bvs, rfl⟩, ⟨_, bcc, rfl⟩, ⟨_, bcs, rfl⟩, ⟨_, bne, rfl⟩,
    ⟨_, beq, rfl⟩⟩

/-! ### Calls and returns -/

/-- A jump or call, whose word is an address it does not read as an operand, moves PC on by 3 before its effect and costs
its row's count (rules R22, R504). -/
theorem impliedInstr_three_eq {op : Byte} {cost : Nat} (hl : (opcodeRow op).length = 3)
    (hc : (opcodeRow op).cycles = some cost) (effect : State → State) (s : State) :
    impliedInstr op effect s = .next { effect { s with pc := s.pc + 3 } with remaining := cost } := by
  have base : baseCost op false = cost := by simp [baseCost, hc]
  rw [impliedInstr, base, State.advance, hl]
  rfl

/-- JSR pushes the address of its own last byte, which is one before the next instruction (rule R211). -/
theorem exec_jsrAbs (w : Addr) (s : State) :
    exec (.jsrAbs w) s = .next { s with
      ram := (s.ram.write (stackCell s.sp) (hiByte (s.pc + 2))).write (stackCell (s.sp - 1)) (loByte (s.pc + 2))
      sp := s.sp - 2
      pc := w
      remaining := 6 } := by
  have last : s.pc + 3 - 1 = s.pc + 2 := by bv_omega
  refine (impliedInstr_three_eq (op := 0x20) rfl rfl (jsrEffect w) s).trans ?_
  simp only [jsrEffect, push16_eq, last]
  rfl

/-- RTS continues one past the pulled word (rule R212). -/
theorem exec_rts (s : State) :
    exec .rts s = .next { s with
      pc := word16 (s.ram.read (stackCell (s.sp + 2))) (s.ram.read (stackCell (s.sp + 1))) + 1
      sp := s.sp + 2
      remaining := 6 } := by
  refine (impliedInstr_eq (op := 0x60) rfl rfl rtsEffect s).trans ?_
  simp only [rtsEffect, pull16_eq]
  rfl

theorem stackCell_inj {p q : Byte} : stackCell p = stackCell q ↔ p = q := by
  unfold stackCell
  rw [Nat.add_left_cancel_iff, BitVec.toNat_inj]

/-- The two cells a 16-bit push stored hold the word, wherever SP was (rule R62). -/
theorem word16_read_pushed {m : Memory 8} (hm : m.wf 2048 = true) (sp : Byte) (w : Addr) :
    let pushed := (m.write (stackCell sp) (hiByte w)).write (stackCell (sp - 1)) (loByte w)
    word16 (pushed.read (stackCell sp)) (pushed.read (stackCell (sp - 1))) = w := by
  intro pushed
  have inRam : stackCell sp < 2048 := by unfold stackCell; omega
  have hm' := Memory.wf_write (v := hiByte w) hm inRam
  have apart : stackCell sp ≠ stackCell (sp - 1) := by rw [ne_eq, stackCell_inj]; bv_omega
  rw [Memory.read_write_of_ne _ apart hm', Memory.read_write_self _ _ hm, Memory.read_write_self _ _ hm', word16_hi_lo]

/-- Settles O17: RTS pulls the two cells JSR pushed, from where JSR left SP. -/
theorem rtsReturnsPastJsr : Obligations.RtsReturnsPastJsr := by
  intro w s hs
  have pulled := word16_read_pushed (State.wf_iff.mp hs).1 s.sp (s.pc + 2)
  have top : s.sp - 2 + 1 = s.sp - 1 := by bv_omega
  have below : s.sp - 2 + 2 = s.sp := BitVec.sub_add_cancel s.sp 2
  have past : s.pc + 2 + 1 = s.pc + 3 := add_assoc s.pc 2 1
  refine ⟨_, _, exec_jsrAbs w s, exec_rts _, ?pc, below, rfl, rfl, rfl, rfl⟩
  case pc => simp only [top, below, pulled, past]

/-- Settles O16: the bytes JSR pushes and the word RTS pulls, as numbers. -/
theorem callAndReturnResult : Obligations.CallAndReturnResult := by
  refine ⟨.of_checks (by decide) (by decide +kernel), .of_checks (by decide) (by decide +kernel), fun w s => ⟨?_, ?_⟩⟩
  · rw [exec_jsrAbs, hiByte_eq, loByte_eq]
  · rw [exec_rts, word16_eq, BitVec.ofNat_add _ 1]
    rfl

/-! ### The software interrupt and its return -/

/-- Taking an interrupt pushes the address to return to and the status byte, sets I and continues at the vector; a vector
in cartridge space is read without a side effect (rules R213, R307, R308). -/
theorem enterInterrupt_eq {vector : Addr} (hv : cpuRegion vector = .cartridge)
    (hv' : cpuRegion (vector + 1) = .cartridge) (ret : Addr) (b : Bool) (s : State) :
    enterInterrupt ret b vector s = { s with
      ram := ((s.ram.write (stackCell s.sp) (hiByte ret)).write (stackCell (s.sp - 1)) (loByte ret)).write
        (stackCell (s.sp - 2)) (s.flags.pack b)
      sp := s.sp - 3
      flags := { s.flags with i := true }
      pc := word16 (s.cart.getCpuAt (vector + 1)) (s.cart.getCpuAt vector) } := by
  have sp : s.sp - 2 - 1 = s.sp - 3 := by bv_omega
  simp only [enterInterrupt, read16_cart hv hv', push16_eq, push_eq, sp]
  rfl

/-- Returning from an interrupt pulls the status byte and then PC (rules R214, R311). -/
theorem returnFromInterrupt_eq (s : State) :
    returnFromInterrupt s = { s with
      flags := Flags.unpack (s.ram.read (stackCell (s.sp + 1)))
      pc := word16 (s.ram.read (stackCell (s.sp + 3))) (s.ram.read (stackCell (s.sp + 2)))
      sp := s.sp + 3 } := by
  have low : s.sp + 1 + 1 = s.sp + 2 := add_assoc s.sp 1 1
  have high : s.sp + 1 + 2 = s.sp + 3 := add_assoc s.sp 1 2
  simp only [returnFromInterrupt, pull_eq, pull16_eq, State.setFlags, low, high]
  rfl

/-- The high byte of a sum, before it wraps (rule R7). -/
theorem hiByte_ofNat (n : Nat) : hiByte (BitVec.ofNat 16 n) = BitVec.ofNat 8 (n / 256) := by
  apply BitVec.eq_of_toNat_eq
  rw [hiByte_toNat, BitVec.toNat_ofNat, BitVec.toNat_ofNat]
  omega

theorem loByte_ofNat (n : Nat) : loByte (BitVec.ofNat 16 n) = BitVec.ofNat 8 n := by
  apply BitVec.eq_of_toNat_eq
  rw [loByte_toNat, BitVec.toNat_ofNat, BitVec.toNat_ofNat]
  omega

/-- Settles O13: BRK takes an interrupt with B = 1 and the address two past its opcode, whose bytes are those of the sum
before it wraps. -/
theorem brkResult : Obligations.BrkResult := by
  refine ⟨.of_checks (by decide) (by decide +kernel), fun s => ?_⟩
  intro ret status
  have saved : s.pc + 1 + 1 = BitVec.ofNat 16 ret := by bv_omega
  refine (impliedInstr_eq (op := 0x00) rfl rfl brkEffect s).trans ?_
  rw [brkEffect, enterInterrupt_eq (by decide) (by decide), pack_eq, word16_eq]
  simp only [saved, hiByte_ofNat, loByte_ofNat]
  rfl

/-- Settles O14: RTI is a return from an interrupt. -/
theorem rtiResult : Obligations.RtiResult := by
  refine ⟨.of_checks (by decide) (by decide +kernel), fun s => ?_⟩
  refine (impliedInstr_eq (op := 0x40) rfl rfl rtiEffect s).trans ?_
  rw [rtiEffect, returnFromInterrupt_eq, word16_eq]
  rfl

/-! ### Jumps -/

/-- The pointer's second byte, in the page of its first (rule R131). -/
theorem word16_hiByte_loByte_succ (w : Addr) :
    word16 (hiByte w) (loByte w + 1) = BitVec.ofNat 16 (256 * (w.toNat / 256) + (w.toNat + 1) % 256) := by
  rw [word16_eq, BitVec.toNat_add, hiByte_toNat, loByte_toNat, Nat.mod_add_mod]
  rfl

/-- Settles O39: the absolute form sets PC, and the indirect form sets it from its two reads. -/
theorem jumpResults : Obligations.JumpResults := by
  refine ⟨.of_checks (by decide) (by decide +kernel), fun w s => ⟨?absolute, ?indirect⟩⟩
  case absolute => exact impliedInstr_three_eq (op := 0x4C) rfl rfl (jmpEffect w) s
  case indirect =>
    have length : (Instr.jmpInd w).row.length = 3 := congrArg Row.length opcodeRow_6C
    have next : atNext (.jmpInd w) s = { s with pc := s.pc + 3 } := by rw [atNext, length]; rfl
    refine (impliedInstr_three_eq (op := 0x6C) rfl rfl (jmpIndirectEffect w) s).trans ?_
    simp only [next, jmpIndirectEffect, indirectTarget, word16_hiByte_loByte_succ, word16_eq (memRead _ _).1]
    rfl

end Sys2Proof.Machine
end

section
/-! PROOF. Stack operations, flag operations and NOP (rules R220 to R231, R241 to R243): what each instruction answers as
one next state. -/

namespace Sys2Proof.Machine

/-! ### NOP -/

/-- No other mode makes an implied or an immediate operand (rules R121, R123). -/
theorem mode_of_operand_implied_or_immediate {i : Instr}
    (ho : i.operand = .implied ∨ ∃ m, i.operand = .immediate m) : i.row.mode ∈ [Mode.implied, .immediate] := by
  rw [Instr.operand] at ho
  generalize i.row.mode = mode at ho ⊢
  cases mode <;> simp [Operand.ofBytes] at ho ⊢

/-- Every NOP row without an address costs two cycles (rules R104, R231, R241, R242). -/
theorem baseCost_of_nop {i : Instr} (hk : i.kind = .nop) (ho : i.operand = .implied ∨ ∃ m, i.operand = .immediate m) :
    baseCost i.opcode false = 2 := by
  have cycles : (opcodeRow i.opcode).cycles = some 2 :=
    opcodeRow_of_table (P := fun r => r.kind = .nop → r.mode ∈ [Mode.implied, .immediate] → r.cycles = some 2)
      (by decide) i.opcode hk (mode_of_operand_implied_or_immediate ho)
  simp [baseCost, cycles]

/-- Settles O33: a NOP of one byte has no effect, and any other is a read instruction whose effect leaves the state the
read made. -/
theorem nopResults : Obligations.NopResults := by
  refine ⟨.of_checks (by decide) (by decide +kernel), fun i s hw hk => ⟨fun ho => ?implied, fun m ho => ?immediate,
    fun o ho => ?memory⟩⟩
  case implied =>
    rw [exec_implied hw (by rw [hk]; decide) ho, hk, impliedInstr, baseCost_of_nop hk (.inl ho)]
    rfl
  case immediate =>
    rw [exec_read_eq hw (by rw [hk]; decide) (congrArg Operand.source ho), hk, costOf_eq]
    simp only [load, baseCost_of_nop hk (.inr ⟨m, ho⟩)]
    rfl
  case memory =>
    rw [exec_read_eq hw (by rw [hk]; decide) (congrArg Operand.source ho), hk]
    simp only [load, resolve_state]
    rfl

/-! ### The stack -/

/-- PLA loads A with the pulled byte, N and Z from it (rule R222). -/
theorem plaEffect_eq (s : State) :
    let top := s.ram.read (stackCell (s.sp + 1))
    plaEffect s = { s with a := top, flags := nzOf s.flags top, sp := s.sp + 1 } := by
  simp only [plaEffect, pull_eq, nzOf_eq]
  rfl

/-- PLP takes the six flags from the pulled byte (rule R223). -/
theorem plpEffect_eq (s : State) :
    plpEffect s = { s with flags := Flags.unpack (s.ram.read (stackCell (s.sp + 1))), sp := s.sp + 1 } := by
  simp only [plpEffect, pull_eq]
  rfl

/-- Settles O40: each instruction is one push or one pull, after PC has moved on. -/
theorem stackResults : Obligations.StackResults := by
  refine ⟨.of_checks (by decide) (by decide +kernel), .of_checks (by decide) (by decide +kernel),
    .of_checks (by decide) (by decide +kernel), .of_checks (by decide) (by decide +kernel), fun s => ?_⟩
  refine ⟨(impliedInstr_eq (op := 0x48) rfl rfl phaEffect s).trans ?pha,
    (impliedInstr_eq (op := 0x08) rfl rfl phpEffect s).trans ?php,
    (impliedInstr_eq (op := 0x68) rfl rfl plaEffect s).trans ?pla,
    (impliedInstr_eq (op := 0x28) rfl rfl plpEffect s).trans ?plp⟩
  case pha => rw [phaEffect, push_eq]; rfl
  case php => rw [phpEffect, push_eq, pack_eq]; rfl
  case pla => rw [plaEffect_eq]
  case plp => rw [plpEffect_eq]; rfl

/-! ### The flags -/

/-- Settles O41: the effect of each instruction sets its one flag. -/
theorem flagResults : Obligations.FlagResults := by
  refine ⟨.of_checks (by decide) (by decide +kernel), .of_checks (by decide) (by decide +kernel),
    .of_checks (by decide) (by decide +kernel), .of_checks (by decide) (by decide +kernel),
    .of_checks (by decide) (by decide +kernel), .of_checks (by decide) (by decide +kernel),
    .of_checks (by decide) (by decide +kernel), fun s => ?_⟩
  exact ⟨impliedInstr_eq (op := 0x18) rfl rfl clcEffect s, impliedInstr_eq (op := 0x38) rfl rfl secEffect s,
    impliedInstr_eq (op := 0x58) rfl rfl cliEffect s, impliedInstr_eq (op := 0x78) rfl rfl seiEffect s,
    impliedInstr_eq (op := 0xD8) rfl rfl cldEffect s, impliedInstr_eq (op := 0xF8) rfl rfl sedEffect s,
    impliedInstr_eq (op := 0xB8) rfl rfl clvEffect s⟩

end Sys2Proof.Machine
end

section
/-! PROOF. The unofficial opcodes (rules R240, R244 to R264): the read-modify-write opcodes as an accumulator operation
with the byte written back, the immediate combinations, and the unstable opcodes under both values of their parameter. -/

namespace Sys2Proof.Machine

/-! ### LAX and SAX -/

/-- Settles O34: LAX is a read instruction whose effect sets both registers, SAX one write of the bus. -/
theorem laxSaxResults : Obligations.LaxSaxResults := by
  refine ⟨.of_checks (by decide) (by decide +kernel), .of_checks (by decide) (by decide +kernel),
    fun i o s hw ho => ⟨fun hk => ?lax, fun hk => ?sax⟩⟩
  case lax =>
    have flags : (load (.memory o) (atNext i s)).state.flags = s.flags := load_flags _ _
    rw [exec_read_eq hw (by rw [hk]; decide) (congrArg Operand.source ho), hk, nzOf_eq, ← flags]
    rfl
  case sax =>
    rw [exec_write_eq hw (by rw [hk]; decide) ho, hk]
    rfl

/-! ### The combined opcodes -/

section AccumulatorEffects

variable (m : Byte) (s : State)

theorem oraEffect_eq : oraEffect m s = { s with a := s.a ||| m, flags := nzOf s.flags (s.a ||| m) } := by
  rw [nzOf_eq]; rfl

theorem andEffect_eq : andEffect m s = { s with a := s.a &&& m, flags := nzOf s.flags (s.a &&& m) } := by
  rw [nzOf_eq]; rfl

theorem eorEffect_eq : eorEffect m s = { s with a := s.a ^^^ m, flags := nzOf s.flags (s.a ^^^ m) } := by
  rw [nzOf_eq]; rfl

theorem cmpEffect_eq : cmpEffect m s = { s with flags := compared s.flags s.a m } := rfl

end AccumulatorEffects

/-- Settles O35: the modification is the numbered shift or step, and the effect is that of the official accumulator
operation, from the A that the read and the write left and the flags the modification made. -/
theorem combinedResults : Obligations.CombinedResults := by
  refine ⟨.of_checks (by decide) (by decide +kernel), .of_checks (by decide) (by decide +kernel),
    .of_checks (by decide) (by decide +kernel), .of_checks (by decide) (by decide +kernel),
    .of_checks (by decide) (by decide +kernel), .of_checks (by decide) (by decide +kernel), ?_⟩
  intro i o s hw ho ea m cost done left leftIn right rightIn out7 out0
  have a (v : Byte) : (memWrite ea v m.2).a = s.a := (memWrite_a _ _ _).trans (memRead_a _ _)
  refine ⟨fun hk => ?slo, fun hk => ?rla, fun hk => ?sre, fun hk => ?rra, fun hk => ?dcp, fun hk => ?isb⟩
  all_goals
    rw [exec_rmw_eq hw (by rw [hk]; decide) ho, hk]
    simp only [rmwModify, rmwEffect]
  case slo => rw [shiftAsl_eq, oraEffect_eq, a]; rfl
  case rla => rw [shiftRol_eq, andEffect_eq, a]; rfl
  case sre => rw [shiftLsr_eq, eorEffect_eq, a]; rfl
  case rra => rw [shiftRor_eq, adcEffect_eq]; rfl
  case dcp => rw [stepDec, cmpEffect_eq, a]
  case isb => rw [stepInc, sbcEffect, adcEffect_eq]; rfl

/-! ### The immediate combinations -/

/-- A read instruction with an immediate operand moves PC on by 2 and reads no memory (rules R123, R504). -/
theorem readInstr_immediate_eq {op : Byte} (hl : (opcodeRow op).length = 2) (hc : (opcodeRow op).cycles = some 2)
    (effect : Byte → State → State) (m : Byte) (s : State) :
    readInstr op (.immediate m) effect s = .next { effect m { s with pc := s.pc + 2 } with remaining := 2 } := by
  have base : baseCost op false = 2 := by simp [baseCost, hc]
  rw [readInstr, State.advance, hl]
  simp only [load, base]
  rfl

/-- ALR sets C from the bit its shift drops, and N and Z from the result (rule R254). -/
theorem alrEffect_eq (m : Byte) (s : State) :
    let r := s.a &&& m
    let half : Byte := BitVec.ofNat 8 (r.toNat / 2)
    alrEffect m s = { s with a := half, flags := { nzOf s.flags half with c := r.getLsbD 0 } } := by
  simp only [alrEffect, shiftLsr_eq, nzOf_eq]
  rfl

/-- ARR rotates the incoming C into bit 7 and sets C and V from the result (rule R255). -/
theorem arrEffect_eq (m : Byte) (s : State) :
    let rot : Byte := BitVec.ofNat 8 ((s.a &&& m).toNat / 2 + 128 * s.flags.c.toNat)
    arrEffect m s = { s with
      a := rot
      flags := { nzOf s.flags rot with c := rot.getLsbD 6, v := rot.getLsbD 6 ^^ rot.getLsbD 5 } } := by
  simp only [arrEffect, shiftRor_eq, nzOf_eq]
  rfl

/-- Settles O36: each opcode is its effect on the immediate byte. -/
theorem immediateCombinationResults : Obligations.ImmediateCombinationResults := by
  refine ⟨.of_checks (by decide) (by decide +kernel), .of_checks (by decide) (by decide +kernel),
    .of_checks (by decide) (by decide +kernel), .of_checks (by decide) (by decide +kernel), fun op m s => ?_⟩
  refine ⟨fun hw => ?anc, (readInstr_immediate_eq (op := 0x4B) rfl rfl alrEffect m s).trans ?alr,
    (readInstr_immediate_eq (op := 0x6B) rfl rfl arrEffect m s).trans ?arr,
    (readInstr_immediate_eq (op := 0xCB) rfl rfl axsEffect m s).trans ?axs⟩
  case anc =>
    have rows : ∀ b ∈ ancImmOpcodes, (opcodeRow b).length = 2 ∧ (opcodeRow b).cycles = some 2 := by decide
    obtain ⟨length, cycles⟩ := rows op (of_decide_eq_true hw)
    refine (readInstr_immediate_eq length cycles ancEffect m s).trans ?_
    rw [nzOf_eq]
    rfl
  case alr => rw [alrEffect_eq]
  case arr => rw [arrEffect_eq]
  case axs => rw [nzOf_eq]; rfl

/-! ### The unstable opcodes -/

section Unstable

variable {op : Byte} {run : State → State × (Nat → Nat)} {s : State}

/-- Under `refuse` an unstable opcode does not run its effect (rule R240). -/
theorem unstableInstr_of_refuse (hp : s.params.unstable = .refuse) :
    unstableInstr op run s = .next { s.advance op with refused := true } := by
  simp only [unstableInstr, hp]

/-- Under `silicon` it has its effect, at a cost without a stated value. -/
theorem unstableInstr_of_silicon (hp : s.params.unstable = .silicon) :
    ∃ cost, unstableInstr op run s = .next { (run (s.advance op)).1 with remaining := cost } := by
  simp only [unstableInstr, hp]
  exact ⟨_, rfl⟩

end Unstable

/-- Settles O42: each of the eight opcode bytes belongs to an unstable instruction. -/
theorem unstableOpcodesMark : Obligations.UnstableOpcodesMark := by
  refine ⟨.of_checks (by decide) (by decide +kernel), .of_checks (by decide) (by decide +kernel),
    .of_checks (by decide) (by decide +kernel), .of_checks (by decide) (by decide +kernel),
    .of_checks (by decide) (by decide +kernel), .of_checks (by decide) (by decide +kernel),
    .of_checks (by decide) (by decide +kernel), fun i s hw hop hp => ?_⟩
  rw [exec_unstable hw ((kind_mem_unstableKinds_iff i).mpr hop), unstableInstr_of_refuse hp]
  rfl

section CorruptibleStore

variable {o : MemOperand} {v : Byte} {s : State}

/-- Where the index stays in the page of the base, the store is at the effective address. -/
theorem corruptibleStore_fst_of_not_crossed (h : (resolve o s).crossed = false) :
    (corruptibleStore o v s).1 = memWrite (resolve o s).ea (v &&& (baseHigh o s + 1)) s := by
  simp [corruptibleStore, h]

/-- Where it leaves the page, the address is the next free value (rules R260, R262, R263). -/
theorem corruptibleStore_fst_of_crossed (h : (resolve o s).crossed = true) :
    (corruptibleStore o v s).1 = memWrite (Config.unstableAddr s.draws) (v &&& (baseHigh o s + 1)) s.drawn := by
  simp [corruptibleStore, h]

end CorruptibleStore

/-- What the unstable stores mask their value with, as a number (rules R260 to R263). -/
theorem hiByte_add_one (w : Addr) : hiByte w + 1 = BitVec.ofNat 8 (w.toNat / 256 + 1) := by
  rw [hiByte_eq, BitVec.ofNat_add]
  rfl

/-- The high byte of the base of `(zp),Y` is the pointer's second byte (rules R133, R260). -/
theorem baseHigh_indirectIndexed (a : Byte) (s : State) :
    baseHigh (.indirectIndexed a) s = s.ram.read ((a.toNat + 1) % 256) := by
  rw [baseHigh, zeroPagePointer_eq, hiByte_word16, BitVec.toNat_add]
  rfl

/-- What an opcode with a corruptible store answers under `silicon`, in both cases of the page crossing. -/
theorem unstableInstr_corruptibleStore {op value v : Byte} {o : MemOperand} {s : State}
    {run : State → State × (Nat → Nat)} (hp : s.params.unstable = .silicon)
    (hrun : run (s.advance op) = corruptibleStore o v (s.advance op))
    (hv : v &&& (baseHigh o (s.advance op) + 1) = value) :
    let s0 := s.advance op
    let r := resolve o s0
    (r.crossed = false → ∃ cost, unstableInstr op run s = .next { memWrite r.ea value s0 with remaining := cost }) ∧
    (r.crossed = true → ∃ cost, unstableInstr op run s =
      .next { memWrite (Config.unstableAddr s.draws) value { s0 with draws := s.draws + 1 } with remaining := cost }) := by
  intro s0 r
  obtain ⟨cost, answer⟩ := unstableInstr_of_silicon (op := op) (run := run) hp
  rw [answer, hrun, ← hv]
  refine ⟨fun h => ⟨cost, ?_⟩, fun h => ⟨cost, ?_⟩⟩
  · rw [corruptibleStore_fst_of_not_crossed h]
  · rw [corruptibleStore_fst_of_crossed h]
    rfl

/-- Settles O43: the effect of each opcode under `silicon`, with the cost left open. -/
theorem unstableOpcodesOnSilicon : Obligations.UnstableOpcodesOnSilicon := by
  intro s hp
  refine ⟨fun m => ?xaa, fun m => ?lxa, fun w => ?las, fun w => ?tas, fun w => ?shy, fun w => ?shx, fun w => ?ahxAbsY,
    fun a => ?ahxIndY⟩
  case xaa =>
    obtain ⟨cost, answer⟩ := unstableInstr_of_silicon (op := 0x8B) (run := xaaEffect m) hp
    refine ⟨cost, _, rfl, ?_⟩
    rw [nzOf_eq]
    exact answer
  case lxa =>
    obtain ⟨cost, answer⟩ := unstableInstr_of_silicon (op := 0xAB) (run := lxaEffect m) hp
    refine ⟨cost, _, rfl, ?_⟩
    rw [nzOf_eq]
    exact answer
  case las =>
    obtain ⟨cost, answer⟩ := unstableInstr_of_silicon (op := 0xBB) (run := lasEffect (.absoluteY w)) hp
    have flags : (load (.memory (.absoluteY w)) (atNext (.lasAbsY w) s)).state.flags = s.flags := load_flags _ _
    refine ⟨cost, ?_⟩
    rw [nzOf_eq, ← flags]
    exact answer
  case tas =>
    obtain ⟨cost, answer⟩ := unstableInstr_of_silicon (op := 0x9B) (run := tasEffect (.absoluteY w)) hp
    refine ⟨cost, ?_⟩
    rw [← hiByte_add_one]
    exact answer
  case shy | shx | ahxAbsY =>
    rw [← hiByte_add_one]
    exact unstableInstr_corruptibleStore hp rfl rfl
  case ahxIndY =>
    refine unstableInstr_corruptibleStore hp rfl ?_
    rw [baseHigh_indirectIndexed]
    rfl

end Sys2Proof.Machine
end

section
/-! PROOF. What every step keeps (rules R400, R503): the machine invariant, from the instruction through the boundary
and the CPU tick to the three picture-unit ticks. -/

namespace Sys2Proof.Machine

/-- The invariant is about the memories, the cartridge and the picture unit. -/
theorem State.wf_congr {s t : State} (hr : t.ram = s.ram) (hc : t.cart = s.cart) (hp : t.ppu = s.ppu) :
    t.wf = s.wf := by
  unfold State.wf
  rw [hr, hc, hp]

/-- Every instruction keeps the invariant; an unstable opcode that does not run moves only PC (rule R240). -/
theorem exec_wf {i : Instr} {s t : State} (hw : i.wellFormed = true) (hs : s.wf = true) (h : exec i s = .next t) :
    t.wf = true := by
  by_cases hu : i.kind ∉ unstableKinds ∨ s.params.unstable = .silicon
  · exact (exec_keeps hw hu h).wf hs
  · obtain ⟨hk, silicon⟩ := not_or.mp hu
    have refuse : s.params.unstable = .refuse := by
      cases hp : s.params.unstable with
      | refuse => rfl
      | silicon => exact absurd hp silicon
    rw [exec_unstable hw (not_not.mp hk), unstableInstr_of_refuse refuse] at h
    cases h
    exact hs

theorem resetSequence_wf {s : State} (hs : s.wf = true) : (resetSequence s).wf = true := by
  rw [resetSequence_eq]
  exact hs

theorem interruptEntry_wf {vector : Addr} (hv : cpuRegion vector = .cartridge)
    (hv' : cpuRegion (vector + 1) = .cartridge) {s : State} (hs : s.wf = true) : (interruptEntry vector s).wf = true :=
  ((Keeps.enterInterrupt s.pc false vector hv hv' s).trans (Keeps.setRemaining _ 7)).wf hs

/-- Whatever a boundary services, the invariant stays (rule R306). -/
theorem boundary_wf {s t : State} (hs : s.wf = true) (h : boundary s = .next t) : t.wf = true := by
  unfold boundary at h
  split at h
  · cases h; exact resetSequence_wf hs
  · cases h; exact hs
  · cases h; exact interruptEntry_wf (by decide) (by decide) hs
  · cases h; exact interruptEntry_wf (by decide) (by decide) hs
  · exact exec_wf (fetch_wellFormed s) ((Keeps.fetch s).wf hs) h

theorem cpuTick_wf {s t : State} (hs : s.wf = true) (h : cpuTick s = .next t) : t.wf = true := by
  rcases Nat.eq_zero_or_pos s.remaining with hr | hr
  · obtain ⟨u, hb⟩ := boundary_next s
    have hu := boundary_wf hs hb
    rw [cpuTick_of_boundary hr hb] at h
    cases h
    split <;> exact hu
  · rw [cpuTick_of_cost hr] at h
    cases h
    exact hs

/-- Settles O21: a step is a CPU tick and three picture-unit ticks, and each keeps the invariant. -/
theorem stepKeepsInvariant : Obligations.StepKeepsInvariant := by
  intro s t hs h
  obtain ⟨-, u, hu, rfl⟩ := step_cases h
  exact ppuTicks_wf (cpuTick_wf hs hu)

end Sys2Proof.Machine
end

section
/-! PROOF. The boundary (rules R306, R307, R311, R501, R502): the order of service, what a Reset and an interrupt entry
leave, that RTI undoes an entry, and that a boundary with nothing to service runs the instruction at PC. -/

namespace Sys2Proof.Machine

/-! ### The order of service -/

theorem boundary_of_nmi {s : State} (hp : s.resetPending = false) (hh : s.halted = false) (hn : s.nmiPending = true) :
    boundary s = .next (nmiEntry s) := by
  simp [boundary, State.service, hp, hh, hn]

section NoNmi

variable {s : State} (hp : s.resetPending = false) (hh : s.halted = false) (hn : s.nmiPending = false)

include hp hh hn

theorem service_eq_irq_iff : s.service = .irq ↔ s.irqLine = true ∧ s.flags.i = false := by
  simp [State.service, hp, hh, hn]

theorem boundary_of_irq (hl : s.irqLine = true) (hi : s.flags.i = false) : boundary s = .next (irqEntry s) := by
  rw [boundary, (service_eq_irq_iff hp hh hn).mpr ⟨hl, hi⟩]

theorem boundary_of_instruction (hi : s.irqLine = true → s.flags.i = true) :
    boundary s = exec (fetch s).1 (fetch s).2 := by
  have unmasked : (s.irqLine && !s.flags.i) = false := by cases hl : s.irqLine <;> simp_all
  simp [boundary, State.service, hp, hh, hn, unmasked]

end NoNmi

/-- Settles O9: each service is the boundary of its own conditions, and none of them sets the refusal mark. -/
theorem boundaryPriority : Obligations.BoundaryPriority := by
  intro s hs hr run
  refine ⟨fun hp => ?reset, fun hp hh => ?halted, fun hp hh hn => ?nmi, fun hp hh hn hl hi => ?irq,
    fun hp hh hn => service_eq_irq_iff hp hh hn⟩
  case reset => exact step_of_boundary hs hr (boundary_of_reset hp) ((resetSequence_refused s).trans hs)
  case halted => exact step_of_boundary hs hr (boundary_of_halted hp hh) hs
  case nmi =>
    have unmarked : (nmiEntry s).refused = false := (interruptEntry_refused (by decide) (by decide) _).trans hs
    exact step_of_boundary hs hr (boundary_of_nmi hp hh hn) unmarked
  case irq =>
    have unmarked : (irqEntry s).refused = false := (interruptEntry_refused (by decide) (by decide) s).trans hs
    exact step_of_boundary hs hr (boundary_of_irq hp hh hn hl hi) unmarked

/-! ### Reset and interrupt entry -/

/-- Settles O10: the vector's two bytes as a number. -/
theorem resetSequenceResult : Obligations.ResetSequenceResult := by
  intro s
  rw [resetSequence_eq, word16_eq]

/-- Settles O12: an entry pushes PC itself and the status byte with B = 0. -/
theorem interruptEntryResult : Obligations.InterruptEntryResult := by
  intro s status pushed entered
  have packed : s.flags.pack false = status := pack_eq _ _
  constructor
  · rw [nmiEntry, interruptEntry, enterInterrupt_eq (by decide) (by decide), packed, word16_eq, hiByte_eq, loByte_eq]
    rfl
  · rw [irqEntry, interruptEntry, enterInterrupt_eq (by decide) (by decide), packed, word16_eq, hiByte_eq, loByte_eq]
    rfl

/-! ### RTI undoes an entry -/

/-- RTI in a state with the RAM and the SP an entry left: the three cells the entry stored hold the return address and
the status byte, wherever SP was (rules R62, R214, R307). -/
theorem exec_rti_of_entered {vector : Addr} (hv : cpuRegion vector = .cartridge)
    (hv' : cpuRegion (vector + 1) = .cartridge) (ret : Addr) (b : Bool) {s u : State} (hs : s.wf = true)
    (hram : u.ram = (enterInterrupt ret b vector s).ram) (hsp : u.sp = (enterInterrupt ret b vector s).sp) :
    ∃ t, exec .rti u = .next t ∧ t.pc = ret ∧ t.sp = s.sp ∧ t.flags = s.flags := by
  have hm := (State.wf_iff.mp hs).1
  have inRam (p : Byte) : stackCell p < 2048 := by unfold stackCell; omega
  have hm2 := Memory.wf_write (v := loByte ret) (Memory.wf_write (v := hiByte ret) hm (inRam s.sp)) (inRam (s.sp - 1))
  have word := word16_read_pushed hm s.sp ret
  have status : s.sp - 3 + 1 = s.sp - 2 := by bv_omega
  have low : s.sp - 3 + 2 = s.sp - 1 := by bv_omega
  have high : s.sp - 3 + 3 = s.sp := BitVec.sub_add_cancel s.sp 3
  have lowApart : stackCell (s.sp - 1) ≠ stackCell (s.sp - 2) := by rw [ne_eq, stackCell_inj]; bv_omega
  have highApart : stackCell s.sp ≠ stackCell (s.sp - 2) := by rw [ne_eq, stackCell_inj]; bv_omega
  refine ⟨_, impliedInstr_eq (op := 0x40) rfl rfl rtiEffect u, ?_⟩
  simp only [rtiEffect, returnFromInterrupt_eq, hram, hsp, enterInterrupt_eq hv hv', status, low, high]
  rw [Memory.read_write_of_ne _ highApart hm2, Memory.read_write_of_ne _ lowApart hm2, word,
    Memory.read_write_self _ _ hm2, unpack_pack]
  simp only [and_self]

/-- Settles O15: NMI entry, IRQ entry and BRK are entries that save PC or, BRK, the address two past it. -/
theorem rtiUndoesEntry : Obligations.RtiUndoesEntry := by
  intro s hs
  refine ⟨?nmi, ?irq, ?brk⟩
  case nmi =>
    exact exec_rti_of_entered (s := { s with nmiPending := false }) (vector := nmiVector) (by decide) (by decide) s.pc
      false hs rfl rfl
  case irq => exact exec_rti_of_entered (vector := irqVector) (by decide) (by decide) s.pc false hs rfl rfl
  case brk =>
    obtain ⟨t, ht, hpc, restored⟩ := exec_rti_of_entered (s := { s with pc := s.pc + 1 })
      (u := { brkEffect { s with pc := s.pc + 1 } with remaining := 7 }) (vector := irqVector) (by decide) (by decide)
      (s.pc + 1 + 1) true hs rfl rfl
    exact ⟨_, t, impliedInstr_eq (op := 0x00) rfl rfl brkEffect s, ht, hpc.trans (add_assoc s.pc 1 1), restored⟩

/-! ### The instruction at PC -/

/-- The bytes of an encoding at PC are fetched as the instruction, with the reads' effects (rules R22, R64, R68). -/
theorem fetch_of_readBytes {i : Instr} {s : State} (hw : i.wellFormed = true)
    (h : (readBytes i.row.length s.pc s).1 = encode i) : fetch s = (i, (readBytes i.row.length s.pc s).2) := by
  have decoded := decodeOp_encodedBytes hw
  have lengths : i.row.length = 1 ∨ i.row.length = 2 ∨ i.row.length = 3 := opcodeRow_length_cases i.opcode
  have unread {k : Nat} (hk : i.row.length ≤ k) : i.encodedByte k = 0 :=
    Instr.encodedByte_eq_zero ((encode_length hw).trans_le hk)
  have next : s.pc + 1 + 1 = s.pc + 2 := add_assoc s.pc 1 1
  have row : (opcodeRow i.opcode).length = i.row.length := rfl
  rw [encode_eq_take hw] at h
  rcases lengths with hl | hl | hl <;> rw [hl] at h ⊢ <;>
    simp only [readBytes, List.take_succ_cons, List.take_zero, List.cons.injEq, and_true, next] at h ⊢
  · rw [unread (by omega), unread (by omega)] at decoded
    simp only [fetch, h, row, hl, decoded]
  · obtain ⟨opcode, operand⟩ := h
    rw [unread (k := 2) (by omega)] at decoded
    simp only [fetch, opcode, operand, row, hl, decoded]
  · obtain ⟨opcode, low, high⟩ := h
    simp only [fetch, opcode, low, high, row, hl, decoded]

/-- Settles O7: the boundary fetches the instruction and runs it, and `exec` is total. -/
theorem stepRunsDecodedInstruction : Obligations.StepRunsDecodedInstruction := by
  refine ⟨fun s i hs hr hp hh hn hi hw hb => ?_, fun s a ha => ?_⟩
  · obtain ⟨t, ht⟩ := exec_next i (readBytes i.row.length s.pc s).2
    have serviced : boundary s = .next t := by
      rw [boundary_of_instruction hp hh hn hi, fetch_of_readBytes hw hb, ht]
    exact ⟨t, ht, step_of_cpuTick hs (cpuTick_of_boundary hr serviced)⟩
  · rcases ha with ha | ha
    · rw [memRead_ram_region (cpuRegion_ram ha)]
    · rw [memRead_cart_region (cpuRegion_cart ha)]

end Sys2Proof.Machine
end

section
/-! PROOF. Power-on and the loader (rules R81, R500): the invariant at power-on, and which images the loader accepts. -/

namespace Sys2Proof.Machine

/-! ### Power-on -/

theorem RamInit.wf_iff {r : RamInit} :
    r.wf = true ↔ r.ram.wf 2048 = true ∧ r.oam.wf 256 = true ∧ r.ntRam.wf 2048 = true ∧ r.pal.wf 32 = true := by
  simp [RamInit.wf, and_assoc]

theorem Ppu.powerOn_wf {init : RamInit} (h : init.wf = true) : (Ppu.powerOn init).wf = true := by
  obtain ⟨-, oam, ntRam, pal⟩ := RamInit.wf_iff.mp h
  exact Ppu.wf_iff.mpr ⟨Nat.zero_lt_succ _, oam, ntRam, pal, rfl, Nat.zero_le _, Nat.zero_le _⟩

theorem Cartridge.powerOn_wf {c : Cartridge} (h : c.wf = true) : c.powerOn.wf = true := by
  obtain ⟨counts, prg, chr, wram, -⟩ := Cartridge.wf_iff.mp h
  exact Cartridge.wf_iff.mpr ⟨counts, prg, chr, wram, Nat.zero_lt_succ _⟩

theorem State.powerOn_wf {cart : Cartridge} {init : RamInit} (params : Params) (hc : cart.wf = true)
    (hi : init.wf = true) : (State.powerOn cart init params).wf = true :=
  State.wf_iff.mpr ⟨(RamInit.wf_iff.mp hi).1, Cartridge.powerOn_wf hc, Ppu.powerOn_wf hi⟩

/-! ### The header's fields as numbers -/

theorem mapperNumber_eq (b6 b7 : Byte) : mapperNumber b6 b7 = b7.toNat / 16 * 16 + b6.toNat / 16 := by
  have high := b7.isLt
  have low := b6.isLt
  simp only [mapperNumber, BitVec.toNat_append, BitVec.extractLsb'_toNat, Nat.shiftRight_eq_div_pow]
  rw [← Nat.shiftLeft_add_eq_or_of_lt (by omega), Nat.shiftLeft_eq]
  omega

/-- No flag of rule R81 is set: bits 3 to 1 of byte 6, bits 1 and 0 of byte 7, and the format 2.0 field. -/
theorem unsupportedFlag_eq_none_iff (b6 b7 : Byte) :
    unsupportedFlag b6 b7 = none ↔ b6.toNat / 2 % 8 = 0 ∧ b7.toNat % 4 = 0 ∧ b7.toNat / 4 % 4 ≠ 2 := by
  have version : b7.extractLsb' 2 2 = (0b10 : BitVec 2) ↔ b7.toNat / 4 % 4 = 2 := by
    rw [← BitVec.toNat_inj, BitVec.extractLsb'_toNat, Nat.shiftRight_eq_div_pow]
    rfl
  unfold unsupportedFlag
  simp only [version, bit, getLsbD_eq_decide, decide_eq_true_eq]
  split_ifs <;> simp only [false_iff, true_iff] <;> omega

theorem pageCountsFit_iff (mapper p c : Nat) :
    pageCountsFit mapper p c = true ↔
      (mapper = 0 → p ≤ 2 ∧ c ≤ 1) ∧ (mapper ≠ 0 → p ≤ 16 ∧ c ≤ 16) := by
  unfold pageCountsFit
  split_ifs with h <;> simp [h]

/-! ### What the loader answers -/

/-- The faults of a header and a body that are reported as invalid format (rule R81). -/
def HeaderInvalid (tag : List Byte) (p c : Byte) (zeros body : List Byte) : Prop :=
  tag ≠ headerTag ∨ (∃ z ∈ zeros, z ≠ 0) ∨ p = 0 ∨ body.length ≠ 16384 * p.toNat + 8192 * c.toNat

/-- The faults of a header that are reported as unsupported format (rule R81). -/
def HeaderUnsupported (p c b6 b7 : Byte) : Prop :=
  unsupportedFlag b6 b7 ≠ none ∨ 2 ≤ mapperNumber b6 b7 ∨
    pageCountsFit (mapperNumber b6 b7) p.toNat c.toNat = false

/-- A header without a fault is accepted, and one of the faults of any other is reported. -/
theorem loadWithHeader_cases (tag : List Byte) (p c b6 b7 : Byte) (zeros body : List Byte) (wram0 : Bool)
    (chrRam wram : Memory 8) :
    let loaded := loadWithHeader tag p c b6 b7 zeros body wram0 chrRam wram
    (loaded = .cartridge (buildCartridge (mapperNumber b6 b7) p.toNat c.toNat b6 body wram0 chrRam wram) ∧
      ¬ HeaderInvalid tag p c zeros body ∧ ¬ HeaderUnsupported p c b6 b7) ∨
    (∃ r, loaded = .error (.invalidFormat r) ∧ HeaderInvalid tag p c zeros body) ∨
    ∃ r, loaded = .error (.unsupportedFormat r) ∧ HeaderUnsupported p c b6 b7 := by
  intro loaded
  simp only [loaded, loadWithHeader]
  split
  case isTrue tag => exact .inr (.inl ⟨_, rfl, .inl tag⟩)
  case isFalse tag =>
    split
    case h_1 set => exact .inr (.inr ⟨_, rfl, .inl (by rw [set]; exact Option.some_ne_none _)⟩)
    case h_2 clear =>
      split_ifs with zero mapper pages fit short size
      · exact .inr (.inl ⟨_, rfl, .inr (.inl zero)⟩)
      · exact .inr (.inr ⟨_, rfl, .inr (.inl mapper)⟩)
      · exact .inr (.inl ⟨_, rfl, .inr (.inr (.inl pages))⟩)
      · exact .inr (.inr ⟨_, rfl, .inr (.inr fit)⟩)
      · exact .inr (.inl ⟨_, rfl, .inr (.inr (.inr short.ne))⟩)
      · exact .inr (.inl ⟨_, rfl, .inr (.inr (.inr size))⟩)
      · exact .inl ⟨rfl, by rintro (h | h | h | h) <;> contradiction, by rintro (h | h | h) <;> contradiction⟩

/-- A byte of an image, as a number. -/
def imageByte (image : List Byte) (n : Nat) : Nat := (image.getD n 0).toNat

/-- The mapper number of an image, from the upper halves of its bytes 7 and 6. -/
def imageMapper (image : List Byte) : Nat := imageByte image 7 / 16 * 16 + imageByte image 6 / 16

/-- The faults of rule R81 that make an image one of invalid format. -/
def ImageInvalid (image : List Byte) : Prop :=
  image.take 4 ≠ headerTag ∨ (∃ n, 8 ≤ n ∧ n < 16 ∧ imageByte image n ≠ 0) ∨ imageByte image 4 = 0 ∨
    image.length ≠ 16 + 16384 * imageByte image 4 + 8192 * imageByte image 5

/-- The faults of rule R81 that make an image one of unsupported format. -/
def ImageUnsupported (image : List Byte) : Prop :=
  imageByte image 6 / 2 % 8 ≠ 0 ∨ imageByte image 7 % 4 ≠ 0 ∨ imageByte image 7 / 4 % 4 = 2 ∨ 2 ≤ imageMapper image ∨
    (imageMapper image = 0 ∧ (2 < imageByte image 4 ∨ 1 < imageByte image 5)) ∨
    (imageMapper image = 1 ∧ (16 < imageByte image 4 ∨ 16 < imageByte image 5))

/-- The cartridge an accepted image gives. -/
def imageCartridge (image : List Byte) (wram0 : Bool) (chrRam wram : Memory 8) : Cartridge :=
  buildCartridge (imageMapper image) (imageByte image 4) (imageByte image 5) (image.getD 6 0) (image.drop 16) wram0
    chrRam wram

/-- The header's bytes 8 to 15. -/
theorem exists_ne_zero_mem_iff (image : List Byte) :
    (∃ z ∈ (image.drop 8).take 8, z ≠ 0) ↔ ∃ n, 8 ≤ n ∧ n < 16 ∧ imageByte image n ≠ 0 := by
  constructor
  · rintro ⟨z, hz, hne⟩
    obtain ⟨k, hk, rfl⟩ := List.getElem_of_mem hz
    simp only [List.length_take, List.length_drop] at hk
    refine ⟨8 + k, by omega, by omega, ?_⟩
    rw [imageByte, List.getD_eq_getElem _ _ (by omega)]
    simpa [← BitVec.toNat_inj] using hne
  · rintro ⟨n, h8, h16, hne⟩
    have inside : n < image.length := by
      by_contra past
      rw [imageByte, List.getD_eq_default _ _ (by omega)] at hne
      exact hne rfl
    rw [imageByte, List.getD_eq_getElem _ _ inside] at hne
    refine ⟨image[n], List.mem_iff_getElem.mpr ⟨n - 8, by simp; omega, ?_⟩, fun e => hne (by rw [e]; rfl)⟩
    simp [show 8 + (n - 8) = n by omega]

theorem loadCartridge_of_header {image : List Byte} (h : 16 ≤ image.length) (wram0 : Bool) (chrRam wram : Memory 8) :
    loadCartridge image wram0 chrRam wram =
      loadWithHeader (image.take 4) (image.getD 4 0) (image.getD 5 0) (image.getD 6 0) (image.getD 7 0)
        ((image.drop 8).take 8) (image.drop 16) wram0 chrRam wram := by
  iterate 16
    obtain _ | ⟨_, image⟩ := image
    · simp at h
  rfl

theorem loadCartridge_of_short {image : List Byte} (h : image.length < 16) (wram0 : Bool) (chrRam wram : Memory 8) :
    loadCartridge image wram0 chrRam wram = .error (.invalidFormat "short read") := by
  unfold loadCartridge
  split
  · simp only [List.length_cons] at h
    omega
  · rfl

/-- The faults of an image are those of its header and body. -/
theorem imageInvalid_iff {image : List Byte} (h : 16 ≤ image.length) :
    HeaderInvalid (image.take 4) (image.getD 4 0) (image.getD 5 0) ((image.drop 8).take 8) (image.drop 16) ↔
      ImageInvalid image := by
  have noPages : image.getD 4 0 = 0 ↔ imageByte image 4 = 0 := BitVec.toNat_inj.symm
  have size : (image.drop 16).length ≠ 16384 * imageByte image 4 + 8192 * imageByte image 5 ↔
      image.length ≠ 16 + 16384 * imageByte image 4 + 8192 * imageByte image 5 := by
    rw [List.length_drop]
    omega
  unfold HeaderInvalid ImageInvalid
  rw [exists_ne_zero_mem_iff, noPages, ← size]
  rfl

theorem imageUnsupported_iff (image : List Byte) :
    HeaderUnsupported (image.getD 4 0) (image.getD 5 0) (image.getD 6 0) (image.getD 7 0) ↔ ImageUnsupported image := by
  have counts := pageCountsFit_iff (imageMapper image) (imageByte image 4) (imageByte image 5)
  unfold HeaderUnsupported ImageUnsupported
  rw [ne_eq, unsupportedFlag_eq_none_iff, mapperNumber_eq, ← Bool.not_eq_true]
  change ¬ (imageByte image 6 / 2 % 8 = 0 ∧ imageByte image 7 % 4 = 0 ∧ imageByte image 7 / 4 % 4 ≠ 2) ∨
    2 ≤ imageMapper image ∨ ¬ pageCountsFit (imageMapper image) (imageByte image 4) (imageByte image 5) = true ↔ _
  rw [counts]
  omega

/-- The loader accepts an image without a fault, and reports one of the faults of any other (rule R81). -/
theorem loadCartridge_cases (image : List Byte) (wram0 : Bool) (chrRam wram : Memory 8) :
    let loaded := loadCartridge image wram0 chrRam wram
    (loaded = .cartridge (imageCartridge image wram0 chrRam wram) ∧ ¬ ImageInvalid image ∧ ¬ ImageUnsupported image) ∨
    (∃ r, loaded = .error (.invalidFormat r) ∧ ImageInvalid image) ∨
    ∃ r, loaded = .error (.unsupportedFormat r) ∧ ImageUnsupported image := by
  intro loaded
  rcases Nat.lt_or_ge image.length 16 with short | long
  · exact .inr (.inl ⟨_, loadCartridge_of_short short .., .inr (.inr (.inr (by omega)))⟩)
  · have cases := loadWithHeader_cases (image.take 4) (image.getD 4 0) (image.getD 5 0) (image.getD 6 0)
      (image.getD 7 0) ((image.drop 8).take 8) (image.drop 16) wram0 chrRam wram
    rwa [← loadCartridge_of_header long, imageInvalid_iff long, imageUnsupported_iff, mapperNumber_eq] at cases

/-! ### The cartridge of an accepted image -/

section Build

variable {mapper p c : Nat} {b6 : Byte} {body : List Byte} {wram0 : Bool} {chrRam wram : Memory 8}

theorem buildCartridge_countsOk (hp : p ≠ 0) (fit : pageCountsFit mapper p c = true) :
    (buildCartridge mapper p c b6 body wram0 chrRam wram).countsOk = true := by
  rw [pageCountsFit_iff] at fit
  by_cases hm : mapper = 0 <;> simp [Cartridge.countsOk, buildCartridge, hm] <;> omega

theorem buildCartridge_wf (hp : p ≠ 0) (fit : pageCountsFit mapper p c = true)
    (size : body.length = 16384 * p + 8192 * c) (hc : chrRam.wf 8192 = true) (hw : wram.wf 8192 = true) :
    (buildCartridge mapper p c b6 body wram0 chrRam wram).wf = true := by
  have prg : (Memory.ofList (body.take (16384 * p))).wf (16384 * p) = true :=
    Memory.wf_ofList (List.length_take_le _ _)
  have chr : (if c = 0 then chrRam else Memory.ofList (body.drop (16384 * p))).wf (if c = 0 then 8192 else 8192 * c) =
      true := by
    split
    · exact hc
    · exact Memory.wf_ofList (by rw [List.length_drop]; omega)
  exact Cartridge.wf_iff.mpr ⟨buildCartridge_countsOk hp fit, prg, chr, hw, Nat.zero_lt_succ _⟩

/-- The PRG pages come first in the body (rule R81). -/
theorem buildCartridge_prg_read {n : Nat} (hn : n < 16384 * p) :
    (buildCartridge mapper p c b6 body wram0 chrRam wram).prg.read n = body.getD n 0 := by
  simp [buildCartridge, Memory.read_ofList, hn]

/-- The CHR pages follow them. -/
theorem buildCartridge_chr_read (hc : c ≠ 0) (n : Nat) :
    (buildCartridge mapper p c b6 body wram0 chrRam wram).chr.read n = body.getD (16384 * p + n) 0 := by
  simp [buildCartridge, Memory.read_ofList, hc]

end Build

theorem imageCartridge_wf {image : List Byte} (hi : ¬ ImageInvalid image) (hu : ¬ ImageUnsupported image) (wram0 : Bool)
    {chrRam wram : Memory 8} (hc : chrRam.wf 8192 = true) (hw : wram.wf 8192 = true) :
    (imageCartridge image wram0 chrRam wram).wf = true := by
  simp only [ImageInvalid, ImageUnsupported, not_or, not_not] at hi hu
  obtain ⟨-, -, pages, size⟩ := hi
  have fit : pageCountsFit (imageMapper image) (imageByte image 4) (imageByte image 5) = true := by
    rw [pageCountsFit_iff]
    omega
  refine buildCartridge_wf pages fit ?_ hc hw
  rw [List.length_drop]
  omega

/-- Settles O22: the loader's answer follows from the faults an image has, and an accepted one has none. -/
theorem invariantAtPowerOn : Obligations.InvariantAtPowerOn := by
  refine ⟨fun _ _ params => State.powerOn_wf params, fun image wram0 chrRam wram c hc hw h => ?wf,
    fun image wram0 chrRam wram => ?answer, by decide⟩
  case wf =>
    rcases loadCartridge_cases image wram0 chrRam wram with ⟨accepted, hi, hu⟩ | ⟨r, he, -⟩ | ⟨r, he, -⟩
    · cases h.symm.trans accepted
      exact imageCartridge_wf hi hu wram0 hc hw
    · cases h.symm.trans he
    · cases h.symm.trans he
  case answer =>
    intro byte mapper p c loaded invalid unsupported
    have cases := loadCartridge_cases image wram0 chrRam wram
    change (loaded = _ ∧ ¬ invalid ∧ ¬ unsupported) ∨ (∃ r, loaded = _ ∧ invalid) ∨
      ∃ r, loaded = _ ∧ unsupported at cases
    rcases cases with ⟨accepted, hi, hu⟩ | ⟨r, he, hi⟩ | ⟨r, he, hu⟩
    · refine ⟨fun _ _ => ⟨_, accepted, rfl, rfl, rfl, ?vertical, rfl, fun n hn => ?prg, fun n hn => ?chr,
        fun h0 => if_pos h0, rfl, rfl, rfl, rfl, rfl, rfl, rfl⟩, (absurd · hi), (absurd · hu), (absurd · hi)⟩
      case vertical =>
        refine (getLsbD_eq_decide (image.getD 6 0) 0).trans ?_
        rw [pow_zero, Nat.div_one]
      case prg => exact (buildCartridge_prg_read hn).trans (by simp)
      case chr =>
        have declared : c ≠ 0 := by omega
        exact (buildCartridge_chr_read declared n).trans (by simp [p, byte, imageByte, Nat.add_assoc])
    · exact ⟨(absurd hi ·), fun _ _ => ⟨r, he⟩, fun _ h => absurd hi h, fun _ _ => ⟨_, he⟩⟩
    · exact ⟨fun _ h => absurd hu h, fun _ h => absurd hu h, fun _ _ => ⟨r, he⟩, fun _ _ => ⟨_, he⟩⟩

end Sys2Proof.Machine
end

section
/-! PROOF. The picture unit's registers (rules R403 to R414): what a write of each stores, what a Status read and an
open-bus read give, and the Data register with the map behind it. -/

namespace Sys2Proof.Machine

/-! ### The picture unit's memories under the invariant -/

section Memories

variable {s : State} (hs : s.wf = true)

include hs

theorem State.oam_wf : s.ppu.oam.wf 256 = true := by
  obtain ⟨-, -, ppu⟩ := State.wf_iff.mp hs
  obtain ⟨-, oam, -⟩ := Ppu.wf_iff.mp ppu
  exact oam

theorem State.ntRam_wf : s.ppu.ntRam.wf 2048 = true := by
  obtain ⟨-, -, ppu⟩ := State.wf_iff.mp hs
  obtain ⟨-, -, ntRam, -⟩ := Ppu.wf_iff.mp ppu
  exact ntRam

theorem State.pal_wf : s.ppu.pal.wf 32 = true := by
  obtain ⟨-, -, ppu⟩ := State.wf_iff.mp hs
  obtain ⟨-, -, -, pal, -⟩ := Ppu.wf_iff.mp ppu
  exact pal

theorem State.frame_wf : s.ppu.frame.wf 61440 = true := by
  obtain ⟨-, -, ppu⟩ := State.wf_iff.mp hs
  obtain ⟨-, -, -, -, frame, -⟩ := Ppu.wf_iff.mp ppu
  exact frame

end Memories

/-! ### Open-bus reads -/

theorem openBusByte_of_latch {s : State} (h : s.params.ppuOpenBus = .latch) : openBusByte s = (s.ppu.ioLatch, s) := by
  simp only [openBusByte, h]

theorem openBusByte_of_draw {s : State} (h : s.params.ppuOpenBus = .draw) :
    openBusByte s = (Config.ppuOpenBus s.draws, { s with draws := s.draws + 1 }) := by
  simp only [openBusByte, h]
  rfl

/-! ### Writes -/

/-- Two fields side by side, as a number. -/
theorem append_toNat {m n : Nat} (a : BitVec m) (b : BitVec n) : (a ++ b).toNat = a.toNat * 2 ^ n + b.toNat := by
  rw [BitVec.toNat_append, ← Nat.shiftLeft_add_eq_or_of_lt b.isLt, Nat.shiftLeft_eq]

/-- A field of a word, as a number. -/
theorem extractLsb'_toNat_div {w : Nat} (x : BitVec w) (i n : Nat) :
    (x.extractLsb' i n).toNat = x.toNat / 2 ^ i % 2 ^ n := by
  rw [BitVec.extractLsb'_toNat, Nat.shiftRight_eq_div_pow]

section Toggle

variable {p : Ppu} (d : Byte)

/-- Coarse X of `t` and fine X (rule R409). -/
theorem Ppu.writeScroll_first (h : p.w = false) :
    p.writeScroll d = { p with
      t := BitVec.ofNat 15 (p.t.toNat / 32 * 32 + d.toNat / 8), x := BitVec.ofNat 3 d.toNat, w := true } := by
  have ht : (p.t.extractLsb' 5 10 ++ d.extractLsb' 3 5 : BitVec 15) =
      BitVec.ofNat 15 (p.t.toNat / 32 * 32 + d.toNat / 8) := by
    have := d.isLt; have := p.t.isLt
    apply BitVec.eq_of_toNat_eq
    simp only [append_toNat, extractLsb'_toNat_div, Nat.reducePow, BitVec.toNat_ofNat]
    omega
  have hx : d.extractLsb' 0 3 = BitVec.ofNat 3 d.toNat := BitVec.eq_of_toNat_eq (by simp)
  rw [Ppu.writeScroll, h, ht, hx]
  rfl

/-- Coarse Y and fine Y of `t` (rule R409). -/
theorem Ppu.writeScroll_second (h : p.w = true) :
    p.writeScroll d = { p with
      t := BitVec.ofNat 15 (4096 * (d.toNat % 8) + p.t.toNat % 4096 / 1024 * 1024 + 32 * (d.toNat / 8) +
        p.t.toNat % 32)
      w := false } := by
  have ht : (d.extractLsb' 0 3 ++ p.t.extractLsb' 10 2 ++ d.extractLsb' 3 5 ++ p.t.extractLsb' 0 5 : BitVec 15) =
      BitVec.ofNat 15 (4096 * (d.toNat % 8) + p.t.toNat % 4096 / 1024 * 1024 + 32 * (d.toNat / 8) +
        p.t.toNat % 32) := by
    have := d.isLt
    have row : d.toNat / 8 % 32 = d.toNat / 8 := Nat.mod_eq_of_lt (by omega)
    have nametable : p.t.toNat % 4096 / 1024 = p.t.toNat / 1024 % 4 := by omega
    apply BitVec.eq_of_toNat_eq
    simp only [append_toNat, extractLsb'_toNat_div, Nat.reducePow, Nat.div_one, BitVec.toNat_ofNat]
    omega
  rw [Ppu.writeScroll, h]
  simp only [if_true, ht]

/-- Bits 13 to 8 of `t`, bit 14 cleared (rule R410). -/
theorem Ppu.writeAddress_first (h : p.w = false) :
    p.writeAddress d = { p with
      t := BitVec.ofNat 15 (256 * (d.toNat % 64) + p.t.toNat % 256), w := true } := by
  have ht : ((0 : BitVec 1) ++ d.extractLsb' 0 6 ++ p.t.extractLsb' 0 8 : BitVec 15) =
      BitVec.ofNat 15 (256 * (d.toNat % 64) + p.t.toNat % 256) := by
    apply BitVec.eq_of_toNat_eq
    simp only [append_toNat, extractLsb'_toNat_div, Nat.reducePow, Nat.div_one, BitVec.ofNat_eq_ofNat,
      BitVec.toNat_ofNat]
    omega
  rw [Ppu.writeAddress, h, ht]
  rfl

/-- Bits 7 to 0 of `t`, and `t` to `v` (rule R410). -/
theorem Ppu.writeAddress_second (h : p.w = true) :
    p.writeAddress d = { p with
      t := BitVec.ofNat 15 (p.t.toNat / 256 * 256 + d.toNat)
      v := BitVec.ofNat 15 (p.t.toNat / 256 * 256 + d.toNat)
      w := false } := by
  have ht : (p.t.extractLsb' 8 7 ++ d : BitVec 15) = BitVec.ofNat 15 (p.t.toNat / 256 * 256 + d.toNat) := by
    have := d.isLt; have := p.t.isLt
    apply BitVec.eq_of_toNat_eq
    simp only [append_toNat, extractLsb'_toNat_div, Nat.reducePow, BitVec.toNat_ofNat]
    omega
  rw [Ppu.writeAddress, h]
  simp only [if_true, ht]

end Toggle

/-- Bits 11 and 10 of `t` from the low bits of Control (rule R404). -/
theorem Ppu.writeControl_eq (p : Ppu) (d : Byte) :
    p.writeControl d = { p with
      ctrl := d, t := BitVec.ofNat 15 (p.t.toNat / 4096 * 4096 + 1024 * (d.toNat % 4) + p.t.toNat % 1024) } := by
  have ht : (p.t.extractLsb' 12 3 ++ d.extractLsb' 0 2 ++ p.t.extractLsb' 0 10 : BitVec 15) =
      BitVec.ofNat 15 (p.t.toNat / 4096 * 4096 + 1024 * (d.toNat % 4) + p.t.toNat % 1024) := by
    have := p.t.isLt
    apply BitVec.eq_of_toNat_eq
    simp only [append_toNat, extractLsb'_toNat_div, Nat.reducePow, Nat.div_one, BitVec.toNat_ofNat]
    omega
  rw [Ppu.writeControl, ht]

/-- A read of a register without a value of its own is an open-bus read (rules R403, R413). -/
theorem readPpuReg_openBus : ∀ r ∈ ([0, 1, 3, 5, 6] : List (BitVec 3)), ∀ s, readPpuReg r s = openBusByte s := by
  intro r hr s
  simp only [List.mem_cons, List.not_mem_nil, or_false] at hr
  rcases hr with rfl | rfl | rfl | rfl | rfl <;> rfl

/-- Settles O54: each register's own write, after the I/O latch has taken the byte. -/
theorem scrollAndAddressWrites : Obligations.ScrollAndAddressWrites := by
  intro s d p t
  have reg (q : Ppu) : (s.setPpu p).setPpu q = { s with ppu := q } := rfl
  refine ⟨fun h => congrArg (s.setPpu p).setPpu (Ppu.writeScroll_first d h),
    fun h => congrArg (s.setPpu p).setPpu (Ppu.writeScroll_second d h),
    fun h => congrArg (s.setPpu p).setPpu (Ppu.writeAddress_first d h),
    fun h => congrArg (s.setPpu p).setPpu (Ppu.writeAddress_second d h),
    congrArg (s.setPpu p).setPpu (p.writeControl_eq d), rfl, rfl, rfl, ⟨?oamData, fun hs k => ?oam⟩, rfl,
    fun r hr => ⟨fun h => ?latch, fun h => ?draw⟩⟩
  case oamData =>
    have next : BitVec.ofNat 8 (p.oamAddr.toNat + 1) = p.oamAddr + 1 := ofNat_toNat_add_one _
    rw [next]
    rfl
  case oam => exact Memory.read_write d p.oamAddr.toNat k (State.oam_wf hs)
  case latch => rw [readPpuReg_openBus r hr, openBusByte_of_latch h]
  case draw => rw [readPpuReg_openBus r hr, openBusByte_of_draw h]

/-! ### Status -/

/-- Bits 7 to 5 of a Status value are the three flags, the five below them open bus (rule R406). -/
theorem Ppu.status_bits (p : Ppu) (b : Byte) :
    (p.status b).getLsbD 7 = p.vblank ∧ (p.status b).getLsbD 6 = p.sprite0Hit ∧
    (p.status b).getLsbD 5 = p.spriteOverflow ∧ (p.status b).toNat % 32 = b.toNat % 32 := by
  have fields : ∀ (v h o : Bool) (x : BitVec 5),
      let status : Byte := BitVec.ofBool v ++ BitVec.ofBool h ++ BitVec.ofBool o ++ x
      status.getLsbD 7 = v ∧ status.getLsbD 6 = h ∧ status.getLsbD 5 = o ∧ status.toNat % 32 = x.toNat := by decide
  obtain ⟨vblank, hit, overflow, low⟩ := fields p.vblank p.sprite0Hit p.spriteOverflow (b.extractLsb' 0 5)
  exact ⟨vblank, hit, overflow, low.trans (BitVec.extractLsb'_toNat 0 5 b)⟩

/-- Settles O55: every mirror is register 2, whose value is three flags above five open-bus bits. -/
theorem statusRead : Obligations.StatusRead := by
  intro s a h h' h2 r
  have register : BitVec.ofNat 3 a.toNat = 2 := BitVec.eq_of_toNat_eq (by simpa using h2)
  have status : r = readStatus s := by
    show memRead a s = _
    rw [memRead_ppuReg_region (cpuRegion_ppuReg h h'), register]
    rfl
  obtain ⟨vblank, hit, overflow, open5⟩ := s.ppu.status_bits (openBusByte s).1
  rw [status]
  refine ⟨vblank, hit, overflow, fun hm => open5.trans ?_, fun hm => open5.trans ?_, ?_⟩
  · rw [openBusByte_of_latch hm]
  · rw [openBusByte_of_draw hm]
  · cases hm : s.params.ppuOpenBus with
    | draw => rw [readStatus, openBusByte_of_draw hm]; rfl
    | latch => rw [readStatus, openBusByte_of_latch hm]; rfl

/-! ### The address map -/

section AddressMap

variable {c : Cartridge} {a : BitVec 14}

theorem ppuRegion_pattern (m : Mirroring) (h : a.toNat < 0x2000) : ppuRegion m a = .pattern := if_pos h

theorem ppuRegion_nametable (m : Mirroring) (h : 0x2000 ≤ a.toNat) (h' : a.toNat < 0x3F00) :
    ppuRegion m a = .nametable (nametableAddress m a).toNat := by
  rw [ppuRegion, if_neg (by omega), if_pos h']

theorem ppuRegion_palette (m : Mirroring) (h : 0x3F00 ≤ a.toNat) : ppuRegion m a = .palette (palIndex a) := by
  rw [ppuRegion, if_neg (by omega), if_neg (by omega)]

variable (p : Ppu)

theorem ppuRead_pattern (h : a.toNat < 0x2000) : ppuRead c p a = c.getPpuAt a := by
  rw [ppuRead, ppuRegion_pattern _ h]

theorem ppuRead_nametable (h : 0x2000 ≤ a.toNat) (h' : a.toNat < 0x3F00) :
    ppuRead c p a = p.ntRam.read (nametableAddress c.mirroring a).toNat := by
  rw [ppuRead, ppuRegion_nametable _ h h']

theorem ppuRead_palette (h : 0x3F00 ≤ a.toNat) : ppuRead c p a = (p.pal.read (palIndex a)).setWidth 8 := by
  rw [ppuRead, ppuRegion_palette _ h]

end AddressMap

/-- The nametable cell under a palette address is that of the address 4 KiB below (rule R411). -/
theorem nametableAddress_sub (m : Mirroring) {a : BitVec 14} (h : 0x3F00 ≤ a.toNat) :
    nametableAddress m (a - 0x1000) = nametableAddress m a := by
  have below : (a - 0x1000).toNat = a.toNat - 0x1000 := by bv_omega
  apply BitVec.eq_of_toNat_eq
  rw [nametableAddress_toNat, nametableAddress_toNat, below]
  cases m <;> simp only [] <;> omega

/-! ### Writes through the map -/

section DataWrite

variable {s : State} {a : BitVec 14} (d : Byte)

theorem ppuWrite_pattern (h : a.toNat < 0x2000) : ppuWrite a d s = s.setCart (s.cart.setPpuAt a d) := by
  rw [ppuWrite, ppuRegion_pattern _ h]

theorem ppuWrite_nametable (h : 0x2000 ≤ a.toNat) (h' : a.toNat < 0x3F00) :
    ppuWrite a d s =
      s.setPpu { s.ppu with ntRam := s.ppu.ntRam.write (nametableAddress s.cart.mirroring a).toNat d } := by
  rw [ppuWrite, ppuRegion_nametable _ h h']

theorem ppuWrite_palette (h : 0x3F00 ≤ a.toNat) :
    ppuWrite a d s = s.setPpu { s.ppu with pal := s.ppu.pal.write (palIndex a) (d.setWidth 6) } := by
  rw [ppuWrite, ppuRegion_palette _ h]

end DataWrite

/-- CHR RAM reads back what was written, CHR ROM what it held (rules R77, R92). -/
theorem Cartridge.getPpuAt_setPpuAt {c : Cartridge} (h : c.wf = true) (a : BitVec 14) (d : Byte) :
    (c.setPpuAt a d).getPpuAt a = if c.chrPages = 0 then d else c.getPpuAt a := by
  obtain ⟨-, -, chr, -⟩ := Cartridge.wf_iff.mp h
  unfold Cartridge.setPpuAt
  split
  · exact Memory.read_write_self d (c.chrOffset a) chr
  · rfl

/-! ### The Data register -/

/-- A Data write stores through the map after the I/O latch took the byte, then `v` moves on (rule R412). -/
theorem writePpuReg_data (d : Byte) (s : State) :
    let t := ppuWrite (vramAddr s.ppu.v) d (s.setPpu { s.ppu with ioLatch := d })
    writePpuReg 7 d s = t.setPpu { t.ppu with v := s.ppu.v + s.ppu.increment } := rfl

theorem readPpuReg_data_palette {s : State} (h : 0x3F00 ≤ (vramAddr s.ppu.v).toNat) :
    let a := vramAddr s.ppu.v
    readPpuReg 7 s =
      ((openBusByte s).1.extractLsb' 6 2 ++ (ppuRead s.cart s.ppu a).extractLsb' 0 6,
        (openBusByte s).2.setPpu { s.ppu with
          readBuffer := ppuRead s.cart s.ppu (a - 0x1000), v := s.ppu.v + s.ppu.increment }) :=
  if_neg (Nat.not_lt.mpr h)

/-- A palette read: two open-bus bits above the six of the cell (rule R411). -/
theorem paletteValue_toNat (b : Byte) (cell : BitVec 6) :
    let value : Byte := (b.extractLsb' 6 2 : BitVec 2) ++ (cell.setWidth 8).extractLsb' 0 6
    value.toNat % 64 = cell.toNat ∧ value.toNat / 64 = b.toNat / 64 := by
  intro value
  have joined : value.toNat = b.toNat / 64 % 4 * 64 + cell.toNat % 256 % 64 := by
    refine (append_toNat _ _).trans ?_
    simp only [extractLsb'_toNat_div, BitVec.toNat_setWidth, Nat.reducePow, Nat.div_one]
  have := cell.isLt; have := b.isLt
  omega

/-- Settles O56: the map's three regions, and the register's read and write at the address `v` gives. -/
theorem dataRegister : Obligations.DataRegister := by
  intro s d p a next r w stored ntCell palCell
  have nt (x : BitVec 14) : (nametableAddress s.cart.mirroring x).toNat = ntCell x.toNat := nametableAddress_toNat _ x
  have pal (x : BitVec 14) : palIndex x = palCell x.toNat := palIndex_eq x
  have va : vramAddr p.v = a := (BitVec.ofNat_toNat 14 p.v).symm
  have written : w = _ := writePpuReg_data d s
  rw [va] at written
  have patternW (h : a.toNat < 0x2000) : w = { s with cart := s.cart.setPpuAt a d, ppu := stored } := by
    rw [written, ppuWrite_pattern d h]
    rfl
  have nametableW (h : 0x2000 ≤ a.toNat) (h' : a.toNat < 0x3F00) :
      w = { s with ppu := { stored with ntRam := p.ntRam.write (ntCell a.toNat) d } } := by
    rw [written, ppuWrite_nametable d h h', ← nt]
    rfl
  have paletteW (h : 0x3F00 ≤ a.toNat) :
      w = { s with ppu := { stored with pal := p.pal.write (palCell a.toNat) (BitVec.ofNat 6 d.toNat) } } := by
    rw [written, ppuWrite_palette d h, ← pal]
    rfl
  refine ⟨fun x => ⟨ppuRead_pattern p, fun h h' => ?ntMap, fun h => ?palMap⟩, fun h => ?below, fun h => ?palette,
    patternW, nametableW, paletteW, fun hs h h' => ?ntBack, fun hs h => ?palBack, fun hs h => ?chrBack⟩
  case ntMap => rw [ppuRead_nametable p h h', nt]
  case palMap =>
    rw [ppuRead_palette p h, pal, BitVec.toNat_setWidth]
    omega
  case below => exact if_pos h
  case palette =>
    have low : nametableAddress s.cart.mirroring (a - 0x1000) = nametableAddress s.cart.mirroring a :=
      nametableAddress_sub _ h
    have under : (a - 0x1000).toNat = a.toNat - 0x1000 := by bv_omega
    have read : r = _ := readPpuReg_data_palette (va ▸ h)
    rw [va, ppuRead_palette p h, pal, ppuRead_nametable p (by omega) (by omega), low, nt] at read
    obtain ⟨cell, open2⟩ := paletteValue_toNat (openBusByte s).1 (p.pal.read (palCell a.toNat))
    rw [read]
    refine ⟨cell, fun hm => open2.trans ?_, fun hm => open2.trans ?_, ?_⟩
    · rw [openBusByte_of_latch hm]
    · rw [openBusByte_of_draw hm]
    · cases hm : s.params.ppuOpenBus with
      | draw => rw [openBusByte_of_draw hm]; rfl
      | latch => rw [openBusByte_of_latch hm]; rfl
  case ntBack =>
    rw [nametableW h h', ppuRead_nametable _ h h', nt]
    exact Memory.read_write_self d _ (State.ntRam_wf hs)
  case palBack =>
    rw [paletteW h, ppuRead_palette _ h, pal, BitVec.toNat_setWidth]
    simp only []
    rw [Memory.read_write_self (BitVec.ofNat 6 d.toNat) _ (State.pal_wf hs), BitVec.toNat_ofNat]
    omega
  case chrBack =>
    rw [patternW h, ppuRead_pattern _ h, ppuRead_pattern _ h]
    exact Cartridge.getPpuAt_setPpuAt (State.wf_iff.mp hs).2.1 a d

end Sys2Proof.Machine
end

section
/-! PROOF. A picture-unit tick (rules R401, R402, R415 to R421, R431, R436): the flag events, the NMI output, a tick
with rendering disabled, and the length of a frame. -/

namespace Sys2Proof.Machine

/-! ### The flag events -/

theorem Ppu.flagEvents_vblank (p : Ppu) :
    p.flagEvents.vblank =
      if p.tick = 82182 then p.vblank || !p.suppress else if p.tick = 89002 then false else p.vblank := by
  unfold Ppu.flagEvents
  split_ifs <;> simp_all

theorem Ppu.flagEvents_suppress (p : Ppu) :
    p.flagEvents.suppress = if p.tick = 82182 then false else p.suppress := by
  unfold Ppu.flagEvents
  split_ifs <;> rfl

theorem Ppu.flagEvents_sprite0Hit (p : Ppu) :
    p.flagEvents.sprite0Hit = if p.tick = 89001 then false else p.sprite0Hit := by
  unfold Ppu.flagEvents
  split_ifs <;> simp_all

theorem Ppu.flagEvents_spriteOverflow (p : Ppu) :
    p.flagEvents.spriteOverflow = if p.tick = 89001 then false else p.spriteOverflow := by
  unfold Ppu.flagEvents
  split_ifs <;> simp_all

/-- The flag events leave the memories and what Control, Mask and OAM decide. -/
theorem Ppu.flagEvents_keeps (p : Ppu) :
    let f := p.flagEvents
    f.tick = p.tick ∧ f.oddFrame = p.oddFrame ∧ f.ctrl = p.ctrl ∧ f.mask = p.mask ∧
    f.vblankDelayed = p.vblankDelayed ∧ f.nmiOut = p.nmiOut := by
  intro f
  have hf : f = _ := p.flagEvents_frame
  rw [hf]
  exact ⟨rfl, rfl, rfl, rfl, rfl, rfl⟩

/-- What a tick takes from before it to its last two steps: the registers the NMI output and the advance read, and the
VBlank of its flag events (rule R421). -/
theorem ppuTick_rendered (s : State) :
    let p := s.ppu
    let r := p.flagEvents.render s.cart p.scanline p.cycle
    r.tick = p.tick ∧ r.oddFrame = p.oddFrame ∧ r.ctrl = p.ctrl ∧ r.mask = p.mask ∧ r.vblank = p.flagEvents.vblank ∧
    r.suppress = p.flagEvents.suppress ∧ r.vblankDelayed = p.vblankDelayed ∧ r.nmiOut = p.nmiOut := by
  intro p r
  obtain ⟨tick, oddFrame, ctrl, mask, vblank, suppress, delayed, nmiOut⟩ :=
    p.flagEvents.render_keeps s.cart p.scanline p.cycle
  obtain ⟨tick', oddFrame', ctrl', mask', delayed', nmiOut'⟩ := p.flagEvents_keeps
  exact ⟨tick.trans tick', oddFrame.trans oddFrame', ctrl.trans ctrl', mask.trans mask', vblank, suppress,
    delayed.trans delayed', nmiOut.trans nmiOut'⟩

/-! ### A tick with rendering disabled -/

theorem Ppu.rendering_eq_false_iff (p : Ppu) :
    p.rendering = false ↔ p.mask.getLsbD 3 = false ∧ p.mask.getLsbD 4 = false := by
  simp [Ppu.rendering, bit]

/-- With rendering disabled a tick writes the backdrop at a visible position and does no other work (rules R415, R434,
R435). -/
theorem ppuTick_not_rendering (s : State) (hr : s.ppu.rendering = false) :
    let f := s.ppu.flagEvents
    let line := s.ppu.scanline
    let c := s.ppu.cycle
    (ppuTick s).ppu = { f with
      frame :=
        if line < 240 ∧ 1 ≤ c ∧ c ≤ 256 then s.ppu.frame.write (256 * line + (c - 1)) (s.ppu.pal.read 0)
        else s.ppu.frame
      nmiOut := f.nmiLevel
      vblankDelayed := f.vblank
      tick := (ppuTick s).ppu.tick
      oddFrame := (ppuTick s).ppu.oddFrame } := by
  intro f line c
  have hf : f = _ := s.ppu.flagEvents_frame
  have off : f.rendering = false := by rw [hf]; exact hr
  have noHit (bg : LayerPixel) (sp : SpritePixel) : f.hitsSprite0 (c - 1) bg sp = false := by
    simp only [Ppu.hitsSprite0, bit, (f.rendering_eq_false_iff.mp off).1, Bool.and_false, Bool.false_and]
  have frame := ppuTick_frame s
  rw [frame]
  have render : f.render s.cart line c = { f with
      frame :=
        if line < 240 ∧ 1 ≤ c ∧ c ≤ 256 then s.ppu.frame.write (256 * line + (c - 1)) (s.ppu.pal.read 0)
        else s.ppu.frame } := by
    simp only [Ppu.render, off, Bool.false_and, Bool.false_eq_true, if_false]
    split
    · simp only [Ppu.outputPixel, Ppu.pixelColor, off, noHit, Bool.or_false, Bool.false_eq_true, if_false]
      rw [hf]
    · rw [hf]
  change ({ f.render s.cart line c with nmiOut := _, vblankDelayed := _, tick := _, oddFrame := _ } : Ppu) = _
  rw [render]
  rfl

/-! ### The sprite flags -/

/-- The sprites in range of a line, by their numbers (rules R430, R437). -/
theorem Ppu.inRangeSprites_eq (p : Ppu) (line : Nat) :
    p.inRangeSprites line =
      ((List.range 64).filter fun n => (p.oamSprite n).inRange line p.spriteHeight).map p.oamSprite :=
  List.filter_map

theorem Ppu.inRangeSprites_length (p : Ppu) (line : Nat) :
    (p.inRangeSprites line).length =
      (List.range 64).countP fun n => (p.oamSprite n).inRange line p.spriteHeight := by
  rw [Ppu.inRangeSprites_eq, List.length_map, List.countP_eq_length_filter]

theorem SpriteEntry.inRange_eq (e : SpriteEntry) (line h : Nat) :
    e.inRange line h = decide (e.y.toNat ≤ line ∧ line < e.y.toNat + h) := (Bool.decide_and _ _).symm

/-- The sprite steps of a tick find the sprites and the overflow flag as the flag events left them. -/
theorem Ppu.background_flagEvents_sprites (cart : Cartridge) (line c : Nat) (p : Ppu) :
    let b := p.flagEvents.background cart line c
    b.inRangeSprites line = p.inRangeSprites line ∧ b.spriteOverflow = p.flagEvents.spriteOverflow := by
  intro b
  have hb : b = _ := p.flagEvents.background_frame cart line c
  rw [hb]
  refine ⟨?_, rfl⟩
  rw [Ppu.flagEvents_frame]
  rfl

/-- A tick sets overflow where it evaluates the sprites of a visible line and finds a ninth (rule R431). -/
theorem ppuTick_spriteOverflow (s : State) :
    let p := s.ppu
    (ppuTick s).ppu.spriteOverflow = (p.flagEvents.spriteOverflow ||
      (p.rendering && decide (p.scanline < 240 ∧ p.cycle = 257) &&
        decide (8 < (p.inRangeSprites p.scanline).length))) := by
  intro p
  cases hr : p.rendering with
  | false =>
    rw [ppuTick_not_rendering s hr]
    simp only [Bool.false_and, Bool.or_false, p]
  | true =>
    rw [ppuTick_rendering s hr]
    simp only [Bool.true_and]
    by_cases hl : renderLine p.scanline = true
    · obtain ⟨inRange, overflow⟩ := p.background_flagEvents_sprites s.cart p.scanline p.cycle
      obtain ⟨-, -, evaluated, -⟩ :=
        (p.flagEvents.background s.cart p.scanline p.cycle).sprites_values s.cart p.scanline p.cycle
      rw [if_pos hl, evaluated, inRange, overflow]
    · have hidden : ¬ p.scanline < 240 := fun h => hl ((renderLine_iff _).mpr (.inl h))
      simp [p, hl, hidden]

/-- A tick sets sprite-zero hit at a visible position where the two layers meet (rule R436). -/
theorem ppuTick_sprite0Hit (s : State) :
    let p := s.ppu
    (ppuTick s).ppu.sprite0Hit = (p.flagEvents.sprite0Hit ||
      (decide (p.scanline < 240 ∧ 1 ≤ p.cycle ∧ p.cycle ≤ 256) && hitAt p p.cycle)) := by
  intro p
  cases hr : p.rendering with
  | false =>
    have noHit : hitAt p p.cycle = false := by
      unfold hitAt
      split
      · rfl
      · simp only [(p.rendering_eq_false_iff.mp hr).1, Bool.and_false, Bool.false_and]
    rw [ppuTick_not_rendering s hr, noHit, Bool.and_false, Bool.or_false]
  | true => rw [ppuTick_rendering s hr]

/-- Settles O57: VBlank and the suppression come from the flag events, the NMI output from the VBlank one tick before,
and each sprite flag from its own step. -/
theorem vblankAndNmi : Obligations.VblankAndNmi := by
  intro s p q line c height inRange evaluates
  obtain ⟨-, -, ctrl, -, vblank, suppress, delayed, nmiOut⟩ := ppuTick_rendered s
  have hq : q = _ := ppuTick_frame s
  have qVblank : q.vblank = p.flagEvents.vblank := by rw [hq]; exact vblank
  have level : q.nmiOut = (p.vblankDelayed && p.ctrl.getLsbD 7) := by
    rw [hq]
    simp only [Ppu.nmiLevel, delayed, ctrl]
    rfl
  have found : (s.ppu.inRangeSprites s.ppu.scanline).length = (List.range 64).countP inRange := by
    simp only [Ppu.inRangeSprites_length, SpriteEntry.inRange_eq]
    rfl
  refine ⟨qVblank.trans p.flagEvents_vblank, ?suppress, by rw [hq], level, ?rising, rfl, ?overflow, ?hit⟩
  case suppress => rw [← Ppu.flagEvents_suppress, hq]; exact suppress
  case rising =>
    rw [hq]
    change (s.nmiPending || (_ && !_)) = _
    rw [nmiOut]
  case overflow =>
    refine (ppuTick_spriteOverflow s).trans ?_
    rw [Ppu.flagEvents_spriteOverflow, found]
    by_cases clears : s.ppu.tick = 89001
    · have preRender : ¬ s.ppu.scanline < 240 := by rw [Ppu.scanline, clears]; decide
      simp [p, clears, preRender]
    · rw [if_neg clears]
      exact (if_neg clears).symm
  case hit =>
    refine (ppuTick_sprite0Hit s).trans ?_
    rw [Ppu.flagEvents_sprite0Hit]
    by_cases clears : s.ppu.tick = 89001
    · have preRender : ¬ s.ppu.scanline < 240 := by rw [Ppu.scanline, clears]; decide
      simp [p, clears, preRender]
    · rw [if_neg clears]
      exact (if_neg clears).symm

/-! ### The length of a frame -/

/-- The advance by the position, the parity and the two enable bits of Mask (rule R402). -/
theorem Ppu.advance_position (p : Ppu) :
    let wraps := p.tick = 89341 ∨
      p.tick = 89340 ∧ p.oddFrame = true ∧ (p.mask.getLsbD 3 = true ∨ p.mask.getLsbD 4 = true)
    p.advance.tick = (if wraps then 0 else p.tick + 1) ∧
    p.advance.oddFrame = (if wraps then !p.oddFrame else p.oddFrame) := by
  intro wraps
  have skips : p.tick = 89340 ∧ p.oddFrame = true ∧ p.rendering = true ↔
      p.tick = 89340 ∧ p.oddFrame = true ∧ (p.mask.getLsbD 3 = true ∨ p.mask.getLsbD 4 = true) := by
    rw [Ppu.rendering, Bool.or_eq_true]
    rfl
  by_cases skip : p.tick = 89340 ∧ p.oddFrame = true ∧ p.rendering = true
  · have hw : wraps := .inr (skips.mp skip)
    simp only [Ppu.advance, if_pos skip, if_pos hw, and_self]
  by_cases last : p.tick + 1 = 89342
  · have hw : wraps := .inl (Nat.succ_injective last)
    simp only [Ppu.advance, if_neg skip, if_pos last, if_pos hw, and_self]
  · have hw : ¬ wraps := not_or.mpr ⟨fun h => last (congrArg (· + 1) h), mt skips.mpr skip⟩
    simp only [Ppu.advance, if_neg skip, if_neg last, if_neg hw, and_self]

/-- The position a tick moves to and the parity it leaves (rules R401, R402). -/
theorem ppuTick_position (s : State) :
    let p := s.ppu
    let q := (ppuTick s).ppu
    let wraps := p.tick = 89341 ∨
      p.tick = 89340 ∧ p.oddFrame = true ∧ (p.mask.getLsbD 3 = true ∨ p.mask.getLsbD 4 = true)
    q.tick = (if wraps then 0 else p.tick + 1) ∧ q.oddFrame = (if wraps then !p.oddFrame else p.oddFrame) := by
  intro p q wraps
  obtain ⟨tick, oddFrame, -, mask, -⟩ := ppuTick_rendered s
  let u := (p.flagEvents.render s.cart p.scanline p.cycle).updateNmi
  have advanced := u.advance_position
  rw [show u.tick = p.tick from tick, show u.oddFrame = p.oddFrame from oddFrame, show u.mask = p.mask from mask]
    at advanced
  exact advanced

theorem ppuTick_mask (s : State) : (ppuTick s).ppu.mask = s.ppu.mask := by
  obtain ⟨-, -, -, mask, -⟩ := ppuTick_rendered s
  rw [ppuTick_frame]
  exact mask

/-- Before its last two ticks a frame only counts on. -/
theorem ppuTick_iterate_in_frame {s : State} (h0 : s.ppu.tick = 0) {n : Nat} (hn : n ≤ 89340) :
    let later := (ppuTick^[n] s).ppu
    later.tick = n ∧ later.oddFrame = s.ppu.oddFrame ∧ later.mask = s.ppu.mask := by
  induction n with
  | zero => exact ⟨h0, rfl, rfl⟩
  | succ n ih =>
    obtain ⟨tick, oddFrame, mask⟩ := ih (by omega)
    obtain ⟨tick', oddFrame'⟩ := ppuTick_position (ppuTick^[n] s)
    rw [Function.iterate_succ_apply']
    rw [if_neg (by omega)] at tick' oddFrame'
    exact ⟨by rw [tick', tick], oddFrame'.trans oddFrame, (ppuTick_mask _).trans mask⟩

/-- After 89341 ticks an odd frame with rendering enabled has started again; any other is at its last tick (rule
R402). -/
theorem ppuTick_iterate_frame_end {s : State} (h0 : s.ppu.tick = 0) {n : Nat} (hn : n = 89341) :
    let later := (ppuTick^[n] s).ppu
    let skips := s.ppu.oddFrame = true ∧ (s.ppu.mask.getLsbD 3 = true ∨ s.ppu.mask.getLsbD 4 = true)
    later.tick = (if skips then 0 else 89341) ∧
    later.oddFrame = (if skips then !s.ppu.oddFrame else s.ppu.oddFrame) := by
  obtain ⟨m, rfl⟩ : ∃ m, n = m + 1 := ⟨n - 1, by omega⟩
  obtain ⟨tick, oddFrame, mask⟩ := ppuTick_iterate_in_frame h0 (n := m) (by omega)
  have position := ppuTick_position (ppuTick^[m] s)
  have notLast : m ≠ 89341 := by omega
  have beforeLast : (m = 89340) = True := eq_true (by omega)
  simp only [tick, oddFrame, mask, notLast, beforeLast, false_or, true_and, hn] at position
  rw [Function.iterate_succ_apply']
  exact position

/-- Settles O58: an odd frame with rendering enabled wraps one tick before any other. -/
theorem frameLength : Obligations.FrameLength := by
  refine ⟨ppuTick_position, fun s n h0 => ?_⟩
  intro later skips
  have enabled : skips = true ↔
      s.ppu.oddFrame = true ∧ (s.ppu.mask.getLsbD 3 = true ∨ s.ppu.mask.getLsbD 4 = true) := by simp [skips]
  refine ⟨fun hn => ?inFrame, fun hs hn => ?skipped, fun hs hn => ?last, fun hs hn => ?full⟩
  case inFrame =>
    obtain ⟨tick, oddFrame, -⟩ := ppuTick_iterate_in_frame h0 hn
    exact ⟨tick, oddFrame⟩
  case skipped =>
    obtain ⟨tick, oddFrame⟩ := ppuTick_iterate_frame_end h0 hn
    rw [if_pos (enabled.mp hs)] at tick oddFrame
    exact ⟨tick, oddFrame.trans (by rw [(enabled.mp hs).1]; rfl)⟩
  case last =>
    have full := mt enabled.mpr (Bool.eq_false_iff.mp hs)
    obtain ⟨tick, oddFrame⟩ := ppuTick_iterate_frame_end h0 hn
    rw [if_neg full] at tick oddFrame
    exact ⟨tick, oddFrame⟩
  case full =>
    have full := mt enabled.mpr (Bool.eq_false_iff.mp hs)
    obtain ⟨m, rfl⟩ : ∃ m, n = m + 1 := ⟨n - 1, by omega⟩
    obtain ⟨tick, oddFrame⟩ := ppuTick_iterate_frame_end h0 (n := m) (by omega)
    rw [if_neg full] at tick oddFrame
    obtain ⟨tick', oddFrame'⟩ := ppuTick_position (ppuTick^[m] s)
    rw [if_pos (.inl tick)] at tick' oddFrame'
    have next : later = (ppuTick (ppuTick^[m] s)).ppu := congrArg State.ppu (Function.iterate_succ_apply' ppuTick m s)
    rw [next]
    exact ⟨tick', oddFrame'.trans (by rw [oddFrame])⟩

end Sys2Proof.Machine
end

section
/-! PROOF. How `v` moves while rendering (rules R425 to R428): the four movements as numbers over the fields of `v` and
`t`, and the cycles that make them. -/

namespace Sys2Proof.Machine

/-! ### The fields of a VRAM address -/

section Fields

variable (v : BitVec 15)

theorem coarseX_toNat : (coarseX v).toNat = v.toNat % 32 := BitVec.extractLsb'_toNat 0 5 v

theorem coarseY_toNat : (coarseY v).toNat = v.toNat / 32 % 32 := extractLsb'_toNat_div v 5 5

theorem nametableSelect_toNat : (nametableSelect v).toNat = v.toNat / 1024 % 4 := extractLsb'_toNat_div v 10 2

theorem fineY_toNat : (fineY v).toNat = v.toNat / 4096 := by
  have := v.isLt
  rw [fineY, extractLsb'_toNat_div]
  omega

end Fields

theorem scrollAddr_toNat (f : BitVec 3) (n : BitVec 2) (y x : BitVec 5) :
    (scrollAddr f n y x).toNat = 4096 * f.toNat + 1024 * n.toNat + 32 * y.toNat + x.toNat := by
  simp only [scrollAddr, append_toNat]
  omega

/-- Bit 0 of the nametable number flips between the two columns, bit 1 between the two rows. -/
theorem nametable_flips (n : BitVec 2) :
    (n ^^^ 1).toNat = (if n.toNat % 2 = 0 then n.toNat + 1 else n.toNat - 1) ∧
    (n ^^^ 2).toNat = (if n.toNat < 2 then n.toNat + 2 else n.toNat - 2) := by
  revert n
  decide

/-! ### The movements as numbers -/

/-- A VRAM address from its four fields as numbers (rule R409). -/
def fieldsAddr (f n y x : Nat) : Nat := 4096 * f + 1024 * n + 32 * y + x

theorem incCoarseX_toNat (v : BitVec 15) :
    let x := v.toNat % 32
    let y := v.toNat / 32 % 32
    let n := v.toNat / 1024 % 4
    let f := v.toNat / 4096
    (incCoarseX v).toNat =
      if x = 31 then fieldsAddr f (if n % 2 = 0 then n + 1 else n - 1) y 0 else fieldsAddr f n y (x + 1) := by
  intro x y n f
  have last : coarseX v = 31 ↔ x = 31 := by rw [← BitVec.toNat_inj, coarseX_toNat]; rfl
  unfold incCoarseX
  simp only [last]
  split
  · rw [scrollAddr_toNat, fineY_toNat, coarseY_toNat, (nametable_flips _).1, nametableSelect_toNat]
    rfl
  · have next : (coarseX v + 1).toNat = x + 1 := by
      rw [BitVec.toNat_add, coarseX_toNat]
      exact Nat.mod_eq_of_lt (by show x + 1 < 32; omega)
    rw [scrollAddr_toNat, fineY_toNat, coarseY_toNat, nametableSelect_toNat, next]
    rfl

theorem incY_toNat (v : BitVec 15) :
    let x := v.toNat % 32
    let y := v.toNat / 32 % 32
    let n := v.toNat / 1024 % 4
    let f := v.toNat / 4096
    (incY v).toNat =
      if f < 7 then fieldsAddr (f + 1) n y x
      else if y = 29 then fieldsAddr 0 (if n < 2 then n + 2 else n - 2) 0 x
      else if y = 31 then fieldsAddr 0 n 0 x
      else fieldsAddr 0 n (y + 1) x := by
  intro x y n f
  have bound := v.isLt
  have top : fineY v ≠ 7 ↔ f < 7 := by
    rw [ne_eq, ← BitVec.toNat_inj, fineY_toNat]
    show ¬ f = 7 ↔ _
    omega
  have row (k : BitVec 5) : coarseY v = k ↔ y = k.toNat := by rw [← BitVec.toNat_inj, coarseY_toNat]
  have r29 : coarseY v = 29 ↔ y = 29 := row 29
  have r31 : coarseY v = 31 ↔ y = 31 := row 31
  unfold incY
  simp only [top, r29, r31]
  split
  · have next : (fineY v + 1).toNat = f + 1 := by
      rw [BitVec.toNat_add, fineY_toNat]
      exact Nat.mod_eq_of_lt (by show f + 1 < 8; omega)
    rw [scrollAddr_toNat, next, nametableSelect_toNat, coarseY_toNat, coarseX_toNat]
    rfl
  split
  · rw [scrollAddr_toNat, (nametable_flips _).2, nametableSelect_toNat, coarseX_toNat]
    rfl
  split
  · rw [scrollAddr_toNat, nametableSelect_toNat, coarseX_toNat]
    rfl
  · have next : (coarseY v + 1).toNat = y + 1 := by
      rw [BitVec.toNat_add, coarseY_toNat]
      exact Nat.mod_eq_of_lt (by show y + 1 < 32; omega)
    rw [scrollAddr_toNat, nametableSelect_toNat, next, coarseX_toNat]
    rfl

theorem copyHorizontal_toNat (v t : BitVec 15) :
    (copyHorizontal v t).toNat =
      fieldsAddr (v.toNat / 4096) (v.toNat / 1024 % 4 / 2 * 2 + t.toNat / 1024 % 2) (v.toNat / 32 % 32)
        (t.toNat % 32) := by
  rw [copyHorizontal, scrollAddr_toNat, append_toNat, extractLsb'_toNat_div, extractLsb'_toNat_div, fineY_toNat,
    coarseY_toNat, coarseX_toNat, fieldsAddr]
  omega

theorem copyVertical_toNat (v t : BitVec 15) :
    (copyVertical v t).toNat =
      fieldsAddr (t.toNat / 4096) (t.toNat / 2048 % 2 * 2 + v.toNat / 1024 % 4 % 2) (t.toNat / 32 % 32)
        (v.toNat % 32) := by
  rw [copyVertical, scrollAddr_toNat, append_toNat, extractLsb'_toNat_div, extractLsb'_toNat_div, fineY_toNat,
    coarseY_toNat, coarseX_toNat, fieldsAddr]
  omega

/-! ### When `v` moves -/

/-- Step 7 of the fetch pattern falls on every eighth cycle (rules R423, R425). -/
theorem lastFetchStep_iff (c : Nat) :
    fetchDue c = true ∧ (c - 1) % 8 = 7 ↔ (1 ≤ c ∧ c ≤ 256 ∨ 321 ≤ c ∧ c ≤ 336) ∧ c % 8 = 0 := by
  simp only [fetchDue, Bool.or_eq_true, Bool.and_eq_true, decide_eq_true_eq]
  omega

theorem Ppu.fetchStep_v (cart : Cartridge) (k : Nat) (p : Ppu) :
    (p.fetchStep cart k).v = (if k = 7 then incCoarseX p.v else p.v) ∧ (p.fetchStep cart k).t = p.t := by
  unfold Ppu.fetchStep
  split <;> simp_all

theorem Ppu.scrollEvents_v (line c : Nat) (p : Ppu) :
    (p.scrollEvents line c).v =
      if c = 256 then incY p.v
      else if c = 257 then copyHorizontal p.v p.t
      else if line = 261 ∧ 280 ≤ c ∧ c ≤ 304 then copyVertical p.v p.t
      else p.v := by
  unfold Ppu.scrollEvents
  split_ifs <;> rfl

/-- The movements of one cycle of a render line, coarse X first (rules R425 to R428). -/
theorem Ppu.background_v (cart : Cartridge) (line c : Nat) (p : Ppu) :
    let v1 := if (1 ≤ c ∧ c ≤ 256 ∨ 321 ≤ c ∧ c ≤ 336) ∧ c % 8 = 0 then incCoarseX p.v else p.v
    (p.background cart line c).v =
      if c = 256 then incY v1
      else if c = 257 then copyHorizontal v1 p.t
      else if line = 261 ∧ 280 ≤ c ∧ c ≤ 304 then copyVertical v1 p.t
      else v1 := by
  intro v1
  let moved := if reloadDue c then (if shiftDue c then p.shift else p).reload else if shiftDue c then p.shift else p
  let fetched := if fetchDue c then moved.fetchStep cart ((c - 1) % 8) else moved
  have hm : moved.v = p.v ∧ moved.t = p.t := by
    simp only [moved]
    cases shiftDue c <;> cases reloadDue c <;> exact ⟨rfl, rfl⟩
  have hv : fetched.v = v1 ∧ fetched.t = p.t := by
    simp only [fetched, v1, ← lastFetchStep_iff]
    cases fetchDue c with
    | false => simpa using hm
    | true => simpa [hm] using moved.fetchStep_v cart ((c - 1) % 8)
  have hq : p.background cart line c = fetched.scrollEvents line c := rfl
  rw [hq, Ppu.scrollEvents_v, hv.1, hv.2]

/-- While rendering, `v` is what the background steps of a render line leave, and else as it was (rule R421). -/
theorem ppuTick_v (s : State) (hr : s.ppu.rendering = true) :
    (ppuTick s).ppu.v =
      if renderLine (s.ppu.tick / 341) = true then (s.ppu.background s.cart (s.ppu.tick / 341) (s.ppu.tick % 341)).v
      else s.ppu.v := by
  have events : (s.ppu.flagEvents.background s.cart s.ppu.scanline s.ppu.cycle).v =
      (s.ppu.background s.cart s.ppu.scanline s.ppu.cycle).v := by
    rw [Ppu.background_v, Ppu.background_v, Ppu.flagEvents_frame]
  rw [ppuTick_rendering s hr, ← Ppu.scanline, ← Ppu.cycle, ← events]
  simp only []
  split
  · rw [Ppu.sprites_frame]
  · rw [Ppu.flagEvents_frame]

/-- Settles O59: on a render line a tick moves `v` as its background steps do, on any other not at all. -/
theorem scrollMovement : Obligations.ScrollMovement := by
  refine ⟨fun s hr hl => ?_, fun s hr h240 h261 => ?_, fun v t =>
    ⟨incCoarseX_toNat v, incY_toNat v, copyHorizontal_toNat v t, copyVertical_toNat v t⟩⟩
  · rw [ppuTick_v s hr, if_pos ((renderLine_iff _).mpr hl)]
    exact Ppu.background_v s.cart s.ppu.scanline s.ppu.cycle s.ppu
  · rw [ppuTick_v s hr, if_neg (mt (renderLine_iff _).mp (not_or.mpr ⟨by omega, h261⟩))]

end Sys2Proof.Machine
end

section
/-! PROOF. What a tick does to the shifters, the latches, the sprite slots and the picture (rules R415, R422 to R424,
R429 to R435), with rendering disabled and enabled. -/

namespace Sys2Proof.Machine

/-! ### The picture -/

/-- A picture with at most one more pixel. -/
theorem read_drawn {m : Memory 6} (h : m.wf 61440 = true) (visible : Prop) [Decidable visible] (j : Nat)
    (color : BitVec 6) (k : Nat) :
    (if visible then m.write j color else m).read k = if visible ∧ k = j then color else m.read k := by
  by_cases hv : visible
  · simp only [hv, if_true, true_and, Memory.read_write color j k h]
  · simp only [hv, if_false, false_and]

/-! ### A render line -/

/-- The flag events change no more than the four flags they are about. -/
theorem Ppu.exists_flagEvents_eq (p : Ppu) : ∃ vblank suppress hit overflow, p.flagEvents = { p with
    vblank := vblank, suppress := suppress, sprite0Hit := hit, spriteOverflow := overflow } :=
  ⟨_, _, _, _, p.flagEvents_frame⟩

section Rendering

variable {s : State} (hr : s.ppu.rendering = true)

include hr

/-- The shifters and the latches after a tick are those of its background steps on a render line, and kept on any other
(rules R422 to R424). -/
theorem ppuTick_background_values :
    let p := s.ppu
    let on := renderLine p.scanline
    let c := p.cycle
    let q := (ppuTick s).ppu
    let shifter := fun (r : BitVec 16) (low : Byte) =>
      if on && reloadDue c then ((if on && shiftDue c then r <<< 1 else r).extractLsb' 8 8 : Byte) ++ low
      else if on && shiftDue c then r <<< 1 else r
    let fetches := fun k : Nat => on = true ∧ fetchDue c = true ∧ (c - 1) % 8 = k
    q.bgLo = shifter p.bgLo p.ptLoLatch ∧ q.bgHi = shifter p.bgHi p.ptHiLatch ∧
    q.atLo = shifter p.atLo (spread (p.atLatch.getLsbD 0)) ∧ q.atHi = shifter p.atHi (spread (p.atLatch.getLsbD 1)) ∧
    q.ntLatch = (if fetches 0 then ppuRead s.cart p (ntAddr p.v) else p.ntLatch) ∧
    q.atLatch = (if fetches 2 then atBits p.v (ppuRead s.cart p (atAddr p.v)) else p.atLatch) ∧
    q.ptLoLatch = (if fetches 4 then ppuRead s.cart p (p.ptAddr p.ntLatch p.v) else p.ptLoLatch) ∧
    q.ptHiLatch = (if fetches 6 then ppuRead s.cart p (p.ptAddr p.ntLatch p.v + 8) else p.ptHiLatch) := by
  obtain ⟨a, b, h, o, hf⟩ := s.ppu.exists_flagEvents_eq
  rw [ppuTick_rendering s hr]
  dsimp only
  cases renderLine s.ppu.scanline with
  | false =>
    simp only [Bool.false_eq_true, if_false]
    rw [hf]
    exact ⟨rfl, rfl, rfl, rfl, rfl, rfl, rfl, rfl⟩
  | true =>
    simp only [if_true, true_and, Bool.true_and]
    rw [Ppu.sprites_frame, hf]
    exact Ppu.background_values s.cart s.ppu.scanline s.ppu.cycle _

/-- The sprite buffer and the slots after a tick are those of its sprite steps on a render line, and kept on any other
(rules R430, R432). -/
theorem ppuTick_sprites_values :
    let p := s.ppu
    let line := p.scanline
    let on := renderLine line = true
    let c := p.cycle
    let q := (ppuTick s).ppu
    q.sec = (if on ∧ c = 257 then (if line < 240 then (p.inRangeSprites line).take 8 else []) else p.sec) ∧
    q.secHas0 =
      (if on ∧ c = 257 then decide (line < 240) && (p.oamSprite 0).inRange line p.spriteHeight else p.secHas0) ∧
    (∀ k : Fin 8, q.slots[k.val] =
      if on ∧ c = 264 + 8 * k.val then
        (match p.sec[k.val]? with
        | some e => p.loadSlot s.cart line e
        | none => { p.slots[k.val] with lo := 0, hi := 0 })
      else p.slots[k.val]) ∧
    q.sprCount = (if on ∧ c = 264 then p.sec.length else p.sprCount) ∧
    q.sprHas0 = (if on ∧ c = 264 then p.secHas0 else p.sprHas0) := by
  obtain ⟨a, b, h, o, hf⟩ := s.ppu.exists_flagEvents_eq
  rw [ppuTick_rendering s hr]
  dsimp only
  cases renderLine s.ppu.scanline with
  | false =>
    simp only [Bool.false_eq_true, if_false]
    rw [hf]
    exact ⟨rfl, rfl, fun _ => rfl, rfl, rfl⟩
  | true =>
    obtain ⟨sec, secHas0, -, slots, sprCount, sprHas0⟩ :=
      (s.ppu.flagEvents.background s.cart s.ppu.scanline s.ppu.cycle).sprites_values s.cart s.ppu.scanline s.ppu.cycle
    simp only [if_true, true_and, sec, secHas0, slots, sprCount, sprHas0]
    rw [Ppu.background_frame, hf]
    exact ⟨rfl, rfl, fun _ => rfl, rfl, rfl⟩

/-- While rendering a tick writes no register but `v` and no memory but the picture (rules R415, R435). -/
theorem ppuTick_rendering_keeps :
    let p := s.ppu
    let q := (ppuTick s).ppu
    q.t = p.t ∧ q.x = p.x ∧ q.w = p.w ∧ q.readBuffer = p.readBuffer ∧ q.ctrl = p.ctrl ∧ q.mask = p.mask ∧
    q.ioLatch = p.ioLatch ∧ q.oam = p.oam ∧ q.oamAddr = p.oamAddr ∧ q.ntRam = p.ntRam ∧ q.pal = p.pal := by
  obtain ⟨a, b, h, o, hf⟩ := s.ppu.exists_flagEvents_eq
  rw [ppuTick_rendering s hr]
  simp only []
  split
  · rw [Ppu.sprites_frame, Ppu.background_frame, hf]
    exact ⟨rfl, rfl, rfl, rfl, rfl, rfl, rfl, rfl, rfl, rfl, rfl⟩
  · rw [hf]
    exact ⟨rfl, rfl, rfl, rfl, rfl, rfl, rfl, rfl, rfl, rfl, rfl⟩

end Rendering

/-! ### The cycles of rules R422 and R423 -/

theorem shiftDue_iff (c : Nat) : shiftDue c = true ↔ 2 ≤ c ∧ c ≤ 257 ∨ 322 ≤ c ∧ c ≤ 337 := by
  simp only [shiftDue, Bool.or_eq_true, Bool.and_eq_true, decide_eq_true_eq]

theorem reloadDue_iff (c : Nat) : reloadDue c = true ↔ 9 ≤ c ∧ c ≤ 257 ∧ c % 8 = 1 ∨ c = 329 ∨ c = 337 := by
  simp only [reloadDue, Bool.or_eq_true, Bool.and_eq_true, decide_eq_true_eq, and_assoc, or_assoc]

theorem fetchDue_iff (c : Nat) : fetchDue c = true ↔ 1 ≤ c ∧ c ≤ 256 ∨ 321 ≤ c ∧ c ≤ 336 := by
  simp only [fetchDue, Bool.or_eq_true, Bool.and_eq_true, decide_eq_true_eq]

theorem spread_toNat (b : Bool) : (spread b).toNat = 255 * b.toNat := by cases b <;> rfl

/-- `shifter_eq` by the cycles a statement names itself. -/
theorem shifter_eq_of_iff {shifts reloads : Bool} {shiftsAt reloadsAt : Prop} [Decidable shiftsAt] [Decidable reloadsAt]
    (hs : shifts = true ↔ shiftsAt) (hr : reloads = true ↔ reloadsAt) (r : BitVec 16) {low : Byte} {n : Nat}
    (hn : low.toNat = n) :
    (if reloads then ((if shifts then r <<< 1 else r).extractLsb' 8 8 : Byte) ++ low
      else if shifts then r <<< 1 else r) =
      BitVec.ofNat 16
        (if reloadsAt then (if shiftsAt then 2 * r.toNat % 65536 else r.toNat) / 256 * 256 + n
          else if shiftsAt then 2 * r.toNat % 65536 else r.toNat) := by
  subst hn
  rw [shifter_eq]
  simp only [hs, hr]

/-- Settles O60: with rendering disabled a tick draws the backdrop alone; with rendering enabled it is the background
and sprite steps of its cycle on a render line, and the pixel at a visible position. -/
theorem renderingDisabled : Obligations.RenderingDisabled := by
  refine ⟨fun s hs h3 h4 => ?disabled, fun s hs hr => ?enabled⟩
  case disabled =>
    intro p q
    obtain ⟨a, b, h, o, hf⟩ := p.exists_flagEvents_eq
    have hq : q = _ := ppuTick_not_rendering s (s.ppu.rendering_eq_false_iff.mpr ⟨h3, h4⟩)
    rw [hf] at hq
    rw [hq]
    refine ⟨rfl, rfl, rfl, rfl, rfl, rfl, rfl, rfl, rfl, rfl, rfl, rfl, rfl, rfl, rfl, rfl, rfl, rfl, rfl, rfl,
      rfl, rfl, rfl, rfl, rfl, fun k => ?_⟩
    refine (read_drawn (State.frame_wf hs) _ _ _ k).trans ?_
    simp only [and_assoc]
    rfl
  case enabled =>
    intro p q line c renders read shifts reloads shifter fetches v attrByte tile sprite height inRange evaluates slotOf
    have enabled : s.ppu.rendering = true := hr
    have on : renderLine line = true ↔ renders := renderLine_iff line
    have shift : (renderLine line && shiftDue c) = true ↔ shifts := by rw [Bool.and_eq_true, on, shiftDue_iff]
    have reload : (renderLine line && reloadDue c) = true ↔ reloads := by rw [Bool.and_eq_true, on, reloadDue_iff]
    have fetch (k : Nat) : renderLine line = true ∧ fetchDue c = true ∧ (c - 1) % 8 = k ↔ fetches k := by
      rw [on, fetchDue_iff]
    have evaluate : renderLine line = true ∧ c = 257 ↔ evaluates := by rw [on]
    have slot (n : Nat) : renderLine line = true ∧ c = n ↔ renders ∧ c = n := by rw [on]
    have readNat (n : Nat) : ppuRead s.cart p (BitVec.ofNat 14 n) = read n := by rw [← BitVec.ofInt_natCast]
    have tileAddr : p.ptAddr p.ntLatch p.v = BitVec.ofNat 14 tile := p.ptAddr_eq p.ntLatch p.v
    have found : p.inRangeSprites line = ((List.range 64).filter inRange).map sprite := by
      rw [Ppu.inRangeSprites_eq]
      simp only [SpriteEntry.inRange_eq]
      rfl
    have background := ppuTick_background_values enabled
    dsimp only at background
    obtain ⟨bgLo, bgHi, atLo, atHi, ntLatch, atLatch, ptLoLatch, ptHiLatch⟩ := background
    obtain ⟨sec, secHas0, slots, sprCount, sprHas0⟩ := ppuTick_sprites_values enabled
    obtain ⟨t, x, w, readBuffer, ctrl, mask, ioLatch, oam, oamAddr, ntRam, pal⟩ := ppuTick_rendering_keeps enabled
    have picture : q.frame = _ := congrArg Ppu.frame (ppuTick_rendering s enabled)
    refine ⟨bgLo.trans (shifter_eq_of_iff shift reload _ rfl), bgHi.trans (shifter_eq_of_iff shift reload _ rfl),
      atLo.trans (shifter_eq_of_iff shift reload _ (spread_toNat _)),
      atHi.trans (shifter_eq_of_iff shift reload _ (spread_toNat _)), ntLatch.trans (if_congr (fetch 0) ?nt rfl),
      atLatch.trans (if_congr (fetch 2) ?attr rfl), ptLoLatch.trans (if_congr (fetch 4) ?ptLo rfl),
      ptHiLatch.trans (if_congr (fetch 6) ?ptHi rfl), sec.trans (if_congr evaluate ?sec rfl),
      secHas0.trans (if_congr evaluate ?has0 rfl), fun k => (slots k).trans (if_congr (slot _) ?slot rfl),
      sprCount.trans (if_congr (slot _) rfl rfl), sprHas0.trans (if_congr (slot _) rfl rfl),
      t, x, w, readBuffer, ctrl, mask, ioLatch, oam, oamAddr, ntRam, pal, fun k => ?picture⟩
    case nt => exact (congrArg (ppuRead s.cart p) (ntAddr_eq p.v)).trans (readNat _)
    case attr =>
      refine (atBits_eq p.v _).trans ?_
      rw [atAddr_eq, readNat]
    case ptLo => exact (congrArg (ppuRead s.cart p) tileAddr).trans (readNat _)
    case ptHi =>
      refine (congrArg (ppuRead s.cart p) ?_).trans (readNat (tile + 8))
      rw [BitVec.ofNat_add, ← tileAddr]
      rfl
    case sec =>
      rw [← found]
      rfl
    case has0 =>
      rw [SpriteEntry.inRange_eq]
      rfl
    case slot =>
      show (match p.sec[k.val]? with | some e => _ | none => _) = _
      cases p.sec[k.val]? with
      | none => rfl
      | some e => exact Ppu.loadSlot_eq s.cart line p e
    case picture =>
      rw [picture]
      refine (read_drawn (State.frame_wf hs) _ _ _ k).trans ?_
      simp only [and_assoc]
      rfl

end Sys2Proof.Machine
end
